-- ==== Sys2Proof/Word.lean ====
section
/-! DEFINITION. The word of the register bus: every register and every access is 32 bits wide
(20_memory.md R72, 00_scope.md R11). -/

namespace Sys2Proof

/-- One register word; bit 0 is the least significant (R11). -/
abbrev Word := BitVec 32

end Sys2Proof
end

