-- ==== Sys2Proof/Config.lean ====
section
/-! DEFINITION. The implementation parameters P1 to P15 (00_scope.md R7) as plain data, and the free
values. The document gives no position, address, code or reset value, so each is a parameter and the
model's rules are written over an arbitrary `Params`; which of them are legal is `Params.wellFormed`
(WellFormed.lean). -/

namespace Sys2Proof

/-- Place of a field inside its register, bits `hi` down to `lo` (00_scope.md R7 P1, R12). -/
structure Slot where
  hi : Nat
  lo : Nat
  deriving DecidableEq, Repr

/-- P1 `LAYOUT`: a place for every named field of CR, CFGR and MTCR (30_encoding.md R101 to R103). -/
structure Layout where
  ioscEn : Slot
  xoscEn : Slot
  xoscTrim : Slot
  mulEn : Slot
  mulLock : Slot
  sysSrc : Slot
  ahbDiv : Slot
  apb1Div : Slot
  apb2Div : Slot
  adcDiv : Slot
  mulSrc : Slot
  mulFact : Slot
  usbDiv : Slot
  ws : Slot
  pfEn : Slot
  hcEn : Slot
  deriving DecidableEq, Repr

/-- P2 `ADDR`: the address of each of the eight registers (20_memory.md R73). -/
structure AddrMap where
  cr : Word
  cfgr : Word
  penr0 : Word
  penr1 : Word
  penr2 : Word
  prstr0 : Word
  prstr1 : Word
  mtcr : Word
  deriving DecidableEq, Repr

/-- P3 `ENC`: the code of each meaning the document uses, per field (30_encoding.md R104). The
one-bit fields and `WS` need no entry: their codes are 1, 0 and the count itself. -/
structure Enc where
  sysSrcInt : Word
  sysSrcMul : Word
  ahbDiv1 : Word
  apb1Div1 : Word
  apb1Div2 : Word
  apb2Div1 : Word
  adcDiv2 : Word
  adcDiv6 : Word
  mulSrcExtDivided : Word
  mulFactX9 : Word
  deriving DecidableEq, Repr

/-- The five gate categories (00_scope.md R17, 43_peripheral_gate.md R180). -/
inductive Category where
  | gpio | serial | adc | timer | usb
  deriving DecidableEq, Repr

/-- The eight peripherals behind enable bits (00_scope.md R17). -/
inductive Peripheral where
  | gpio0 | gpio1 | gpio2 | serial | adc0 | adc1 | timer | usb
  deriving DecidableEq, Repr

/-- One bit of one Peripheral Enable Register (P6). -/
structure EnableBit where
  reg : Fin 3
  bit : Fin 32
  deriving DecidableEq, Repr

/-- P6 `GATE_MAP`: which enable register and bit gates each peripheral (43_peripheral_gate.md R181). -/
structure GateMap where
  gpio0 : EnableBit
  gpio1 : EnableBit
  gpio2 : EnableBit
  serial : EnableBit
  adc0 : EnableBit
  adc1 : EnableBit
  timer : EnableBit
  usb : EnableBit
  deriving DecidableEq, Repr

/-- One bit of one Peripheral Reset Register (P7). -/
structure ResetBit where
  reg : Fin 2
  bit : Fin 32
  deriving DecidableEq, Repr

/-- P8 `GATE_ORDER`: the category gated at upc 5, 6, 7, 8 and 9 (30_encoding.md R111). -/
structure GateOrder where
  first : Category
  second : Category
  third : Category
  fourth : Category
  fifth : Category
  deriving DecidableEq, Repr

/-- P9: the power-on contents the document does not give (70_reset_and_hazards.md R261). -/
structure ResetWords where
  crRest : Word
  cfgrRest : Word
  mtcr : Word
  penr0 : Word
  penr1 : Word
  penr2 : Word
  prstr0 : Word
  prstr1 : Word
  deriving DecidableEq, Repr

/-- P14 `LOCK_ORACLE`: how ENV is resolved (10_state.md R28). `free` is the spec's `none`. -/
inductive LockOracle where
  | free
  | after (n : Nat)
  | never
  deriving DecidableEq, Repr

/-- All parameters of 00_scope.md R7. -/
structure Params where
  layout : Layout
  addr : AddrMap
  enc : Enc
  /-- P4 `TRIM_VALUE` -/
  trimValue : Word
  /-- P5 `WS_TARGET`, 0 to 3 -/
  wsTarget : Fin 4
  gateMap : GateMap
  /-- P7 `USB_RST_LOC` -/
  usbRst : ResetBit
  gateOrder : GateOrder
  resetWords : ResetWords
  /-- P10 `FREQ_UNIT` -/
  freqUnit : Nat
  /-- P11 `TARGET_UNITS` -/
  targetUnits : Nat
  /-- P12 `F_EXT_UNITS` -/
  fExtUnits : Nat
  /-- P12 `EXT_DIV` -/
  extDiv : Nat
  /-- P13 `F_INT_UNITS` -/
  fIntUnits : Nat
  lockOracle : LockOracle
  /-- P15 `POLL_CAP`; `none` is the only production value (40_clock_multiplier.md R147) -/
  pollCap : Option Nat
  deriving DecidableEq, Repr

/-- FREE VALUE (log entry 5). Whether ENV, left free (`LOCK_ORACLE = none`), takes an enabled `EnvLock`
at its n-th opportunity (10_state.md R27: "may take this step at any point ... and is never obliged to
take it"). It has no body, so no proof can learn it. -/
opaque Config.envTakes : Nat → Bool

/-- FREE VALUE (log entry 7). The 32-bit word returned for a bus-frequency constant that does not fit
32 bits: `FREQ_UNIT` has no upper bound (00_scope.md R7 P10) and R205, R206 state the result only as
`zext_32` of the constant. A function of the constant, so the answer is the same on every call (R208). -/
opaque Config.freqOutOfRange : Nat → Word

end Sys2Proof
end

