-- ==== Sys2Proof/Syntax.lean ====
section
/-! DEFINITION. The operations of the block: the four commands HOST can issue (30_encoding.md R110),
the micro-operations named by `upc` (R111) and the four reserved `upc` codes (R114). One constructor of
`Instr` per row of spec/opcode_table.json; no operation has an operand (R110, R115). -/

namespace Sys2Proof

/-- The four commands of the command port (30_encoding.md R110). -/
inductive Command where
  | init | getBus1 | getBus2 | relUsb
  deriving DecidableEq, Repr

/-- Every row of the opcode table. The first four are commands (format CMD); the rest are
micro-operation codes (format UOP). -/
inductive Instr where
  | init
  | getBus1
  | getBus2
  | relUsb
  | cfgInit
  | crFull
  | lockPoll
  | mtSet
  | cfgSwitch
  | gateGpio
  | gateSerial
  | gateAdc
  | gateTimer
  | gateUsb
  | usbRstRel
  | reserved11
  | reserved12
  | reserved13
  | reserved14
  | uIdle
  deriving DecidableEq, Repr

/-- The operations HOST can issue (R119): the commands, not the micro-operations. -/
def Instr.isCommand : Instr → Bool
  | .init | .getBus1 | .getBus2 | .relUsb => true
  | _ => false

/-- A code of one of the two formats: `CMD`, 2 bits on the command port, or `UOP`, 4 bits in `upc`. -/
inductive Code where
  | cmd (c : BitVec 2)
  | uop (u : BitVec 4)
  deriving DecidableEq, Repr

end Sys2Proof
end

