-- ==== Sys2Proof/WellFormed.lean ====
section
/-! DEFINITION. What a legal operation is, and what legal parameters are (00_scope.md R7, R8). Each
check is a Bool, so that it runs. -/

namespace Sys2Proof

/-- An operation of the block: every row of the table but the four codes that name no micro-operation
(30_encoding.md R114). -/
def Instr.wellFormed : Instr → Bool
  | .reserved11 | .reserved12 | .reserved13 | .reserved14 => false
  | _ => true

namespace Slot

/-- The field lies inside bits 31..0 (R8). -/
def inWord (f : Slot) : Bool := f.lo ≤ f.hi && f.hi < 32

/-- Number of bits of the field. -/
def width (f : Slot) : Nat := f.hi - f.lo + 1

/-- Two fields of one register do not overlap (R8). -/
def apart (f g : Slot) : Bool := f.hi < g.lo || g.hi < f.lo

/-- The value fits the field (R8, R12). -/
def holds (f : Slot) (v : Word) : Bool := v.toNat < 2 ^ f.width

end Slot

/-- Every slot of a register is inside the word and no two overlap. -/
def slotsApart : List Slot → Bool
  | [] => true
  | f :: fs => f.inWord && fs.all f.apart && slotsApart fs

/-- R8 for `CR`: five fields, four of them one bit wide. -/
def Layout.crOk (l : Layout) : Bool :=
  slotsApart [l.ioscEn, l.xoscEn, l.xoscTrim, l.mulEn, l.mulLock] &&
  l.ioscEn.width == 1 && l.xoscEn.width == 1 && l.mulEn.width == 1 && l.mulLock.width == 1

/-- R8 for `CFGR`: eight fields, `SYS_SRC` two bits wide. -/
def Layout.cfgrOk (l : Layout) : Bool :=
  slotsApart [l.sysSrc, l.ahbDiv, l.apb1Div, l.apb2Div, l.adcDiv, l.mulSrc, l.mulFact, l.usbDiv] &&
  l.sysSrc.width == 2

/-- R8 for `MTCR`: three fields, `WS` two bits wide, the enables one. -/
def Layout.mtcrOk (l : Layout) : Bool :=
  slotsApart [l.ws, l.pfEn, l.hcEn] && l.ws.width == 2 && l.pfEn.width == 1 && l.hcEn.width == 1

/-- The eight addresses, in the order of 20_memory.md R70. -/
def AddrMap.all (a : AddrMap) : List Word :=
  [a.cr, a.cfgr, a.penr0, a.penr1, a.penr2, a.prstr0, a.prstr1, a.mtcr]

/-- P2: eight distinct addresses, each a multiple of 4 (20_memory.md R73). -/
def AddrMap.ok (a : AddrMap) : Bool :=
  decide a.all.Nodup && a.all.all fun w => w.toNat % 4 == 0

/-- P3: injective per field, and every code fits its field (00_scope.md R7, R8; 30_encoding.md R104). -/
def Enc.ok (l : Layout) (e : Enc) : Bool :=
  e.sysSrcInt != e.sysSrcMul && e.apb1Div1 != e.apb1Div2 && e.adcDiv2 != e.adcDiv6 &&
  l.sysSrc.holds e.sysSrcInt && l.sysSrc.holds e.sysSrcMul && l.ahbDiv.holds e.ahbDiv1 &&
  l.apb1Div.holds e.apb1Div1 && l.apb1Div.holds e.apb1Div2 && l.apb2Div.holds e.apb2Div1 &&
  l.adcDiv.holds e.adcDiv2 && l.adcDiv.holds e.adcDiv6 &&
  l.mulSrc.holds e.mulSrcExtDivided && l.mulFact.holds e.mulFactX9

/-- The eight enable bits, in the order of 00_scope.md R17. -/
def GateMap.all (m : GateMap) : List EnableBit :=
  [m.gpio0, m.gpio1, m.gpio2, m.serial, m.adc0, m.adc1, m.timer, m.usb]

/-- P6: all peripherals of one category are in the same register (43_peripheral_gate.md R180). -/
def GateMap.whole (m : GateMap) : Bool :=
  m.gpio1.reg == m.gpio0.reg && m.gpio2.reg == m.gpio0.reg && m.adc1.reg == m.adc0.reg

/-- P8: the five slots hold the five categories, each once. -/
def GateOrder.isPermutation (o : GateOrder) : Bool :=
  decide [o.first, o.second, o.third, o.fourth, o.fifth].Nodup

/-- P11, P12: the multiplier setting of the contract, factor 9 of `F_EXT_UNITS / EXT_DIV` giving 72
units; `F_EXT_UNITS = 8 * EXT_DIV` (00_scope.md R7; 30_encoding.md R113). -/
def Params.multiplierSupported (p : Params) : Bool :=
  p.targetUnits == 72 && 0 < p.extDiv && p.fExtUnits == 8 * p.extDiv

/-- P10, P13, P15: positive integers. -/
def Params.numbersOk (p : Params) : Bool :=
  0 < p.freqUnit && 0 < p.fIntUnits && p.pollCap != some 0

/-- The well-formedness every rule of the spec presupposes (00_scope.md R7, R8). -/
def Params.wellFormed (p : Params) : Bool :=
  p.layout.crOk && p.layout.cfgrOk && p.layout.mtcrOk && p.addr.ok && p.enc.ok p.layout &&
  p.layout.xoscTrim.holds p.trimValue && decide p.gateMap.all.Nodup && p.gateMap.whole &&
  p.gateOrder.isPermutation && p.multiplierSupported && p.numbersOk

end Sys2Proof
end

