-- ==== Sys2Proof/Machine/Defaults.lean ====
section
/-! DEFINITION. `DEFAULT_F103` (00_scope.md R9): the one instance of the parameters the spec offers,
every number of it `[from general knowledge, not in source]` (93_implementation_defined.md G2 to G10).
PRESUMED (log entry 2): nothing but `State.reset` and the tests rests on it. -/

namespace Sys2Proof.Machine

/-- 30_encoding.md R101 to R103. -/
def defaultLayout : Layout where
  ioscEn := ⟨0, 0⟩
  xoscTrim := ⟨7, 3⟩
  xoscEn := ⟨16, 16⟩
  mulEn := ⟨24, 24⟩
  mulLock := ⟨25, 25⟩
  sysSrc := ⟨1, 0⟩
  ahbDiv := ⟨7, 4⟩
  apb1Div := ⟨10, 8⟩
  apb2Div := ⟨13, 11⟩
  adcDiv := ⟨15, 14⟩
  mulSrc := ⟨17, 16⟩
  mulFact := ⟨21, 18⟩
  usbDiv := ⟨22, 22⟩
  ws := ⟨1, 0⟩
  hcEn := ⟨3, 3⟩
  pfEn := ⟨4, 4⟩

/-- 20_memory.md R74. -/
def defaultAddr : AddrMap where
  cr := 0x40021000
  cfgr := 0x40021004
  prstr0 := 0x4002100C
  prstr1 := 0x40021010
  penr0 := 0x40021014
  penr1 := 0x40021018
  penr2 := 0x4002101C
  mtcr := 0x40022000

/-- 30_encoding.md R104. -/
def defaultEnc : Enc where
  sysSrcInt := 0b00
  sysSrcMul := 0b10
  ahbDiv1 := 0b0000
  apb1Div1 := 0b000
  apb1Div2 := 0b100
  apb2Div1 := 0b000
  adcDiv2 := 0b00
  adcDiv6 := 0b10
  mulSrcExtDivided := 0b11
  mulFactX9 := 0b0111

/-- 43_peripheral_gate.md R181. -/
def defaultGateMap : GateMap where
  gpio0 := ⟨1, 2⟩
  gpio1 := ⟨1, 3⟩
  gpio2 := ⟨1, 4⟩
  serial := ⟨1, 14⟩
  adc0 := ⟨1, 9⟩
  adc1 := ⟨1, 10⟩
  timer := ⟨2, 0⟩
  usb := ⟨2, 23⟩

/-- 00_scope.md R7 P8: the document's listing order. -/
def defaultGateOrder : GateOrder := ⟨.gpio, .serial, .adc, .timer, .usb⟩

/-- 70_reset_and_hazards.md R262. -/
def defaultResetWords : ResetWords where
  crRest := 0x00000083
  cfgrRest := 0x00000000
  mtcr := 0x00000030
  penr0 := 0x00000014
  penr1 := 0x00000000
  penr2 := 0x00000000
  prstr0 := 0x00000000
  prstr1 := 0x00000000

/-- `DEFAULT_F103`, with P14 and P15 at their defaults `none` (00_scope.md R7). -/
def defaultParams : Params where
  layout := defaultLayout
  addr := defaultAddr
  enc := defaultEnc
  trimValue := 16
  wsTarget := 2
  gateMap := defaultGateMap
  usbRst := ⟨1, 23⟩
  gateOrder := defaultGateOrder
  resetWords := defaultResetWords
  freqUnit := 1000000
  targetUnits := 72
  fExtUnits := 16
  extDiv := 2
  fIntUnits := 8
  lockOracle := .free
  pollCap := none

end Sys2Proof.Machine
end

