-- ==== Sys2Proof/Machine/Operands.lean ====
section
/-! DEFINITION. Field access over `LAYOUT` (00_scope.md R11, R12), the constant words, which are this
block's operands (30_encoding.md R105 to R109), and the reset words (70_reset_and_hazards.md R261). -/

namespace Sys2Proof

namespace Slot

/-- `(1 << (hi - lo + 1)) - 1`: as many low ones as the field is wide. -/
def ones (f : Slot) : Word := (1#32 <<< f.width) - 1#32

/-- `mask(F)` of R12. -/
def mask (f : Slot) : Word := f.ones <<< f.lo

/-- `put(F, v)` of R12. -/
def put (f : Slot) (v : Word) : Word := (v <<< f.lo) &&& f.mask

/-- `X.F = X[hi:lo]` of R12, the field of the word `w`. -/
def get (f : Slot) (w : Word) : Word := (w >>> f.lo) &&& f.ones

/-- Bit `i` belongs to the field. -/
def covers (f : Slot) (i : Nat) : Bool := f.lo ≤ i && i ≤ f.hi

/-- `X.F <- v` of R12: the word with the field replaced. -/
def set (f : Slot) (w v : Word) : Word := (w &&& ~~~f.mask) ||| f.put v

end Slot

namespace Machine

/-- `bit(i) = 1 << i` (R11). -/
def bitMask (i : Fin 32) : Word := 1#32 <<< i.val

/-- `CFG_INIT_WORD` (R105). -/
def cfgInitWord (p : Params) : Word :=
  p.layout.mulSrc.put p.enc.mulSrcExtDivided ||| p.layout.mulFact.put p.enc.mulFactX9 |||
  p.layout.sysSrc.put p.enc.sysSrcInt ||| p.layout.apb1Div.put p.enc.apb1Div2 |||
  p.layout.ahbDiv.put p.enc.ahbDiv1 ||| p.layout.apb2Div.put p.enc.apb2Div1

/-- `CR_WORD` (R106). -/
def crWord (p : Params) : Word :=
  p.layout.ioscEn.put 1 ||| p.layout.xoscEn.put 1 ||| p.layout.xoscTrim.put p.trimValue |||
  p.layout.mulEn.put 1

/-- `MT_WORD` (R107). The code of a wait-state count is the count itself (10_state.md R37). -/
def mtWord (p : Params) : Word :=
  p.layout.ws.put (BitVec.ofNat 32 p.wsTarget.val) ||| p.layout.pfEn.put 1

/-- `CFG_SWITCH_WORD` (R108). -/
def cfgSwitchWord (p : Params) : Word :=
  (cfgInitWord p &&& ~~~p.layout.sysSrc.mask &&& ~~~p.layout.adcDiv.mask) |||
  p.layout.sysSrc.put p.enc.sysSrcMul ||| p.layout.adcDiv.put p.enc.adcDiv6

/-- The peripherals of a category (00_scope.md R17). -/
def peripheralsOf : Category → List Peripheral
  | .gpio => [.gpio0, .gpio1, .gpio2]
  | .serial => [.serial]
  | .adc => [.adc0, .adc1]
  | .timer => [.timer]
  | .usb => [.usb]

/-- `GATE_MAP(p)` (43_peripheral_gate.md R181). -/
def gateLoc (m : GateMap) : Peripheral → EnableBit
  | .gpio0 => m.gpio0
  | .gpio1 => m.gpio1
  | .gpio2 => m.gpio2
  | .serial => m.serial
  | .adc0 => m.adc0
  | .adc1 => m.adc1
  | .timer => m.timer
  | .usb => m.usb

/-- `GATE_MASK(c)` (R109): the enable bits of the category's peripherals. -/
def gateMask (m : GateMap) (c : Category) : Word :=
  ((peripheralsOf c).map fun q => bitMask (gateLoc m q).bit).foldl (· ||| ·) 0

/-- `GATE_REG(c)` (R109): the register of the category's first peripheral, which in well-formed
parameters is the register of all of them (`GateMap.whole`). -/
def gateReg (m : GateMap) : Category → Fin 3
  | .gpio => m.gpio0.reg
  | .serial => m.serial.reg
  | .adc => m.adc0.reg
  | .timer => m.timer.reg
  | .usb => m.usb.reg

/-- `USB_RST_MASK` (R109). -/
def usbRstMask (p : Params) : Word := bitMask p.usbRst.bit

/-- `BUS1_FREQ` (44_commands.md R207). -/
def bus1Freq (p : Params) : Nat := p.targetUnits / 2 * p.freqUnit

/-- `BUS2_FREQ` (R207). -/
def bus2Freq (p : Params) : Nat := p.targetUnits * p.freqUnit

/-- `zext_32` of a frequency constant (R205, R206). A constant that does not fit 32 bits has no stated
result: a free value (log entry 7). -/
def freqWord (n : Nat) : Word := if n < 2 ^ 32 then BitVec.ofNat 32 n else Config.freqOutOfRange n

/-- `CR` at reset: `RESET_CR_REST` with the three bits of 70_reset_and_hazards.md R260 forced (R261). -/
def resetCr (p : Params) : Word :=
  p.layout.mulLock.set (p.layout.mulEn.set (p.layout.ioscEn.set p.resetWords.crRest 1) 0) 0

/-- `CFGR` at reset: `RESET_CFGR_REST` with `SYS_SRC = INT` forced (R260, R261). -/
def resetCfgr (p : Params) : Word := p.layout.sysSrc.set p.resetWords.cfgrRest p.enc.sysSrcInt

end Machine

end Sys2Proof
end

