-- ==== Sys2Proof/Machine/State.lean ====
section
/-! DEFINITION. The state of the block (10_state.md R20), the reasons a step can stop, and the state
after power-on reset (70_reset_and_hazards.md R260 to R263). -/

namespace Sys2Proof.Machine

/-- The eight control registers, the whole of the register bus (20_memory.md R70). -/
inductive Reg where
  | cr | cfgr | penr0 | penr1 | penr2 | prstr0 | prstr1 | mtcr
  deriving DecidableEq, Repr

/-- The events of the trace (10_state.md R46). -/
inductive Event where
  /-- `Cmd(c, accepted)` or `Cmd(c, refused)` -/
  | cmd (c : Command) (accepted : Bool)
  /-- `Rd(X, v)` -/
  | rd (x : Reg) (v : Word)
  /-- `Wr(X, v)` -/
  | wr (x : Reg) (v : Word)
  /-- `Lock` -/
  | lock
  /-- `Resp(v)` -/
  | resp (v : Word)
  deriving DecidableEq, Repr

/-- Why the machine stops: a state the document calls undefined (`fault` of 00_scope.md R15) or one in
which no step is enabled (`stuck`). Each is SAFE: the model stops where the spec gives no further
behaviour, so no claim can be proved of what follows. -/
inductive Fault where
  /-- `HZ_FETCH` holds (70_reset_and_hazards.md R271). Raised by `step`. Safe. -/
  | hzFetch
  /-- `HZ_UNLOCKED` holds (R272). Raised by `step`. Safe. -/
  | hzUnlocked
  /-- `HZ_EARLY_GATE` holds of the trace (R273). Raised by `step`. Safe. -/
  | hzEarlyGate
  /-- `HZ_CR_RMW` holds of the trace (R275). Raised by `step`. Safe. -/
  | hzCrRmw
  /-- `phase` holds one of the codes 6, 7 that name no phase (30_encoding.md R114, 93 U10: stuck).
  Raised by `step`. Safe. -/
  | reservedPhase
  /-- `upc` holds one of the codes 11 to 14 that name no micro-operation (R114: stuck). Raised by the
  meanings of RESERVED_11 to RESERVED_14. Safe. -/
  | reservedUpc
  /-- `stuck(PollCapReached)` (40_clock_multiplier.md R147). Raised by LOCK_POLL under a test-only
  `POLL_CAP`. Safe. -/
  | pollCapReached
  /-- A command while `busy = 1`: not enabled, the port is closed (44_commands.md R200). Raised by the
  four command meanings; `step` never asks for it. Safe. -/
  | portClosed
  /-- A micro-operation whose enabling condition (`busy = 1` and `upc` its code) does not hold. Raised by
  the micro-operation meanings; `step` never asks for it in well-formed parameters. Safe. -/
  | notSelected
  deriving DecidableEq, Repr

/-- The reasons of `refuse(reason)` (00_scope.md R15): what is asked is not carried out and the sticky
`refused` is set (`State.refuse`), a next state. Only `notModelled` is also an outcome of its own. Each is
SAFE: nothing is carried out, and a run with `refused = 1` has no good end. -/
inductive Refusal where
  /-- No meaning yet, by the table's mnemonic. Raised by a refused arm of `exec` (none is left). Safe. -/
  | notModelled (mnemonic : String)
  /-- A raw bus address that holds no register (20_memory.md R78). Recorded by `memRead32` and
  `memWrite32`. Safe. -/
  | notARegister
  /-- Parameters that ask for another multiplier setting than the contract's (30_encoding.md R113).
  Recorded by `step`. Safe. -/
  | unsupportedMultiplierSetting
  /-- A write that would change `MUL_SRC` or `MUL_FACT` while `MUL_EN = 1` (93 U13). Recorded by
  CFG_INIT and CFG_SWITCH. Safe. -/
  | multiplierChangeWhileEnabled
  /-- A `GATE_MAP` that splits a category over two registers (92 D11). Recorded by `step`. Safe. -/
  | splitGateCategory
  /-- Other parameters outside 00_scope.md R7, R8. Recorded by `step`. Safe. -/
  | illFormedParameters
  deriving DecidableEq, Repr

/-- The state of the block, 10_state.md R20, with the parameters it is an instance of (R49) and the three
fields of the model's own: the reason of the last refusal, the HOST program and the draw counter. -/
structure State where
  /-- the parameters P1 to P15; constant, no step writes it (log entry 1) -/
  params : Params
  cr : Word
  cfgr : Word
  penr0 : Word
  penr1 : Word
  penr2 : Word
  prstr0 : Word
  prstr1 : Word
  mtcr : Word
  /-- the micro-program counter (R40) -/
  upc : BitVec 4
  /-- the phase code (R41) -/
  phase : BitVec 3
  busy : Bool
  initDone : Bool
  /-- sticky (R43) -/
  refused : Bool
  /-- MODEL'S OWN (log entry 24): the reason of the last `refuse(reason)` (00_scope.md R15), none as long as
  there was none; the refusal of a second INIT names no reason (R202) -/
  reason : Option Refusal
  /-- the read-modify-write latch `T` (R44) -/
  t : Word
  /-- the response word (R45) -/
  resp : Word
  /-- polls made by LOCK_POLL (R46) -/
  polls : Nat
  /-- the events so far, oldest first (R46) -/
  trace : List Event
  /-- MODEL'S OWN (log entry 4): the HOST commands not yet issued, as their port codes, next first
  (44_commands.md R213, 30_encoding.md R110) -/
  port : List (BitVec 2)
  /-- MODEL'S OWN (log entry 5): steps taken, the argument of the free ENV choice -/
  draws : Nat
  deriving DecidableEq, Repr

/-- `U_IDLE` (10_state.md R40). -/
abbrev upcIdle : BitVec 4 := 15

/-- The phase codes of 30_encoding.md R112. -/
abbrev phReset : BitVec 3 := 0
abbrev phOscillatorsStarting : BitVec 3 := 1
abbrev phMultiplierLocked : BitVec 3 := 2
abbrev phMemoryTimingSet : BitVec 3 := 3
abbrev phClockSwitched : BitVec 3 := 4
abbrev phPeripheralsEnabled : BitVec 3 := 5

/-- Power-on reset for any parameters and any contents of `T` and `resp` (70_reset_and_hazards.md R260,
R261, R263), with nothing asked of the port. -/
def State.powerOn (p : Params) (t resp : Word) : State where
  params := p
  cr := resetCr p
  cfgr := resetCfgr p
  penr0 := p.resetWords.penr0
  penr1 := p.resetWords.penr1
  penr2 := p.resetWords.penr2
  prstr0 := p.resetWords.prstr0
  prstr1 := p.resetWords.prstr1
  mtcr := p.resetWords.mtcr
  upc := upcIdle
  phase := phReset
  busy := false
  initDone := false
  refused := false
  reason := none
  t := t
  resp := resp
  polls := 0
  trace := []
  port := []
  draws := 0

/-- The machine right after reset, for the default parameters (PRESUMED, log entry 2) and with `T` and
`resp` zero (DESIGN CHOICE, log entry 3). -/
def State.reset : State := State.powerOn defaultParams 0 0

end Sys2Proof.Machine
end

