-- ==== Sys2Proof/Machine/Ops.lean ====
section
/-! DEFINITION. The named operations over the registers and the trace: the two bus primitives
(00_scope.md R14, 20_memory.md R76, R77), their raw-address and byte views (R75, R78), and the step of
ENV (10_state.md R27). The block takes no exception (60_exceptions.md R230, R237), so there is no entry
and no return to model. -/

namespace Sys2Proof.Machine

/-- The outcome of an instruction or a step. -/
abbrev Result := Host.Outcome State Fault Refusal

/-- The Peripheral Enable Register with index `g`. -/
def penr (g : Fin 3) : Reg := if g = 0 then .penr0 else if g = 1 then .penr1 else .penr2

/-- The Peripheral Reset Register with index `r`. -/
def prstr (r : Fin 2) : Reg := if r = 0 then .prstr0 else .prstr1

/-- The stored content of a register (10_state.md R20). -/
def State.reg (s : State) : Reg → Word
  | .cr => s.cr
  | .cfgr => s.cfgr
  | .penr0 => s.penr0
  | .penr1 => s.penr1
  | .penr2 => s.penr2
  | .prstr0 => s.prstr0
  | .prstr1 => s.prstr1
  | .mtcr => s.mtcr

/-- The state with one register's content replaced, nothing else changed. -/
def State.setReg (s : State) (x : Reg) (v : Word) : State :=
  match x with
  | .cr => { s with cr := v }
  | .cfgr => { s with cfgr := v }
  | .penr0 => { s with penr0 := v }
  | .penr1 => { s with penr1 := v }
  | .penr2 => { s with penr2 := v }
  | .prstr0 => { s with prstr0 := v }
  | .prstr1 => { s with prstr1 := v }
  | .mtcr => { s with mtcr := v }

/-- The trace is append-only (R46). -/
def State.record (s : State) (e : Event) : State := { s with trace := s.trace ++ [e] }

/-- The sticky mark of what is refused (10_state.md R43). -/
def State.markRefused (s : State) : State := { s with refused := true }

/-- `refuse(reason)` (00_scope.md R15): what was asked is not carried out, and `refused` is set. -/
def State.refuse (s : State) (r : Refusal) : State := { s.markRefused with reason := some r }

/-- What a write of `v` leaves in a register (20_memory.md R77): the value itself, but for the read-only
`MUL_LOCK` of CR, which keeps its value if `v[MUL_EN] = 1` and is cleared otherwise (10_state.md R26,
R29). -/
def State.stored (s : State) (x : Reg) (v : Word) : Word :=
  match x with
  | .cr =>
    let l := s.params.layout
    l.mulLock.set v (if l.mulEn.get v = 1 then l.mulLock.get s.cr else 0)
  | _ => v

/-- `BusRead32(X)` (R76): the value read, and the state with the event `Rd(X, value)`. -/
def State.busRead32 (s : State) (x : Reg) : Word × State := (s.reg x, s.record (.rd x (s.reg x)))

/-- `BusWrite32(X, v)` (R77), with the event `Wr(X, v)`. -/
def State.busWrite32 (s : State) (x : Reg) (v : Word) : State :=
  (s.setReg x (s.stored x v)).record (.wr x v)

/-- `T <- BusRead32(X)` (10_state.md R44). -/
def State.loadT (s : State) (x : Reg) : State :=
  { (s.busRead32 x).2 with t := (s.busRead32 x).1 }

/-- A read-modify-write (00_scope.md R19, 20_memory.md R79): `T <- BusRead32(X)`, then
`BusWrite32(X, f(T))`, as one step. -/
def State.readModifyWrite (s : State) (x : Reg) (f : Word → Word) : State :=
  (s.loadT x).busWrite32 x (f (s.loadT x).t)

/-- The eight registers. -/
def allRegs : List Reg := [.cr, .cfgr, .penr0, .penr1, .penr2, .prstr0, .prstr1, .mtcr]

/-- `ADDR(X)` (R73). -/
def regAddr (a : AddrMap) : Reg → Word
  | .cr => a.cr
  | .cfgr => a.cfgr
  | .penr0 => a.penr0
  | .penr1 => a.penr1
  | .penr2 => a.penr2
  | .prstr0 => a.prstr0
  | .prstr1 => a.prstr1
  | .mtcr => a.mtcr

/-- The register at a raw bus address, if one is there. -/
def regAt (a : AddrMap) (addr : Word) : Option Reg := allRegs.find? fun x => regAddr a x == addr

/-- `MemRead(addr, 4)` on a raw address: the register's `BusRead32`, or the state after
`refuse(NotARegister)`, with no value read (R14, R78). Every address of `ADDR` is a multiple of 4, so a
misaligned address is no register's. -/
def State.memRead32 (s : State) (addr : Word) : Except State (Word × State) :=
  match regAt s.params.addr addr with
  | some x => .ok (s.busRead32 x)
  | none => .error (s.refuse .notARegister)

/-- `MemWrite(addr, 4, v)` on a raw address: the register's `BusWrite32`, or the state after
`refuse(NotARegister)`, with nothing written (R14, R78). -/
def State.memWrite32 (s : State) (addr v : Word) : Except State State :=
  match regAt s.params.addr addr with
  | some x => .ok (s.busWrite32 x v)
  | none => .error (s.refuse .notARegister)

/-- The address of the word a byte address lies in. -/
def wordAddr (addr : Word) : Word := BitVec.ofNat 32 (addr.toNat / 4 * 4)

/-- The little-endian byte view of the register bus (R75): byte `ADDR(X) + k` holds bits `8k+7 : 8k`.
An address outside the eight words has no byte. -/
def State.busByte (s : State) (addr : Word) : Option (BitVec 8) :=
  match regAt s.params.addr (wordAddr addr) with
  | some x => some ((s.reg x >>> (8 * (addr.toNat % 4))).setWidth 8)
  | none => none

/-- `EnvLock` is enabled (10_state.md R27): the multiplier is on, not yet locked, and its source, the
divided external oscillator, runs. -/
def State.lockEnabled (s : State) : Bool :=
  let l := s.params.layout
  l.mulEn.get s.cr == 1 && l.mulLock.get s.cr == 0 &&
    (l.mulSrc.get s.cfgr == s.params.enc.mulSrcExtDivided && l.xoscEn.get s.cr == 1)

/-- The effect of `EnvLock` (R27): `MUL_LOCK <- 1`, event `Lock`. -/
def State.envLock (s : State) : State :=
  { s with cr := s.params.layout.mulLock.set s.cr 1 }.record .lock

/-- A full-word write of CFGR by a micro-operation, refused where it would change `MUL_SRC` or `MUL_FACT`
while `MUL_EN = 1`, which the spec does not model (93_implementation_defined.md U13, 10_state.md R33). -/
def State.changesRunningMultiplier (s : State) (w : Word) : Bool :=
  let l := s.params.layout
  l.mulEn.get s.cr == 1 &&
    (l.mulSrc.get w != l.mulSrc.get s.cfgr || l.mulFact.get w != l.mulFact.get s.cfgr)

end Sys2Proof.Machine
end

