-- ==== Sys2Proof/Machine/Flags.lean ====
section
/-! DEFINITION. The one-bit status items and the sequencer state: the block has no condition codes
(10_state.md R47). When an operation is enabled, how a command starts the sequencer, and how it ends. -/

namespace Sys2Proof.Machine

/-- The outcome of a micro-operation with code `u`: enabled when `busy = 1` and `upc = u`
(40_clock_multiplier.md R141 and the other micro-operation rules). -/
def State.selected (s : State) (u : BitVec 4) (r : Result) : Result :=
  if s.busy = true ∧ s.upc = u then r else .fault .notSelected

/-- The outcome of a command: enabled when `busy = 0` (44_commands.md R200). -/
def State.whenIdle (s : State) (r : Result) : Result :=
  if s.busy = false then r else .fault .portClosed

/-- `upc <- u`. -/
def State.goto (s : State) (u : BitVec 4) : State := { s with upc := u }

/-- `phase <- ph`. -/
def State.enter (s : State) (ph : BitVec 3) : State := { s with phase := ph }

/-- An accepted command starts the sequencer: `busy <- 1 ; upc <- u` (R201, R204). -/
def State.start (s : State) (u : BitVec 4) : State := { s with busy := true, upc := u }

/-- `upc <- U_IDLE ; busy <- 0` (43_peripheral_gate.md R191). -/
def State.finish (s : State) : State := { s with busy := false, upc := upcIdle }

/-- The completion of the bring-up (43_peripheral_gate.md R188). -/
def State.complete (s : State) : State :=
  { s with busy := false, upc := upcIdle, initDone := true, phase := phPeripheralsEnabled }

/-- The answer of a frequency command: `resp <- v`, events `Cmd(c, accepted), Resp(v)`
(44_commands.md R205, R206). -/
def State.respond (s : State) (c : Command) (v : Word) : State :=
  { (s.record (.cmd c true)).record (.resp v) with resp := v }

/-- A poll has been made: `polls <- polls + 1` (40_clock_multiplier.md R143). -/
def State.countPoll (s : State) : State := { s with polls := s.polls + 1 }

/-- The run has been stopped by the test-only cap (40_clock_multiplier.md R147): the machine is at the
poll, `POLL_CAP = K` and `polls = K`. It stands at the poll, so the K-th poll read 0 (DEDUCED, log entry 9). -/
def State.capReached (s : State) : Bool :=
  s.busy && s.upc == 2 && s.params.pollCap == some s.polls

end Sys2Proof.Machine
end

