-- ==== Sys2Proof/Machine/ClockSwitch.lean ====
section
/-! DEFINITION. The System Clock Switch micro-operation (42_clock_switch.md). -/

namespace Sys2Proof.Machine

/-- CFG_SWITCH (R172), refused where it would change a running multiplier (93 U13, log entry 12). -/
def execCfgSwitch (s : State) : Result :=
  s.selected 4 <| .next <|
    if s.changesRunningMultiplier (cfgSwitchWord s.params) then s.refuse .multiplierChangeWhileEnabled
    else ((s.busWrite32 .cfgr (cfgSwitchWord s.params)).goto 5).enter phClockSwitched

end Sys2Proof.Machine
end

