-- ==== Sys2Proof/Machine/Commands.lean ====
section
/-! DEFINITION. The four commands of the port (44_commands.md R200 to R208). -/

namespace Sys2Proof.Machine

/-- INIT (R201): from the phase `Reset` it starts the bring-up; from any other it is refused with the
sticky mark and nothing else (R202). -/
def execInit (s : State) : Result :=
  s.whenIdle <| .next <|
    if s.phase = phReset then (s.record (.cmd .init true)).start 0
    else (s.record (.cmd .init false)).markRefused

/-- GET_BUS1 (R205). -/
def execGetBus1 (s : State) : Result :=
  s.whenIdle (.next (s.respond .getBus1 (freqWord (bus1Freq s.params))))

/-- GET_BUS2 (R206). -/
def execGetBus2 (s : State) : Result :=
  s.whenIdle (.next (s.respond .getBus2 (freqWord (bus2Freq s.params))))

/-- REL_USB (R204): enabled when idle, in any phase. -/
def execRelUsb (s : State) : Result :=
  s.whenIdle (.next ((s.record (.cmd .relUsb true)).start 10))

end Sys2Proof.Machine
end

