-- ==== Sys2Proof/Decode.lean ====
section
/-! DEFINITION. Decoding and encoding of the two formats (30_encoding.md R110, R111, R114, R115). The
codes of the gate micro-operations depend on `GATE_ORDER` (P8), so both directions take it. -/

namespace Sys2Proof

/-- R110: all four codes are used, none is reserved. -/
def decodeCmd (c : BitVec 2) : Command :=
  if c = 0b00#2 then .init else if c = 0b01#2 then .getBus1 else if c = 0b10#2 then .getBus2 else .relUsb

/-- The instruction of a command. -/
def Command.instr : Command → Instr
  | .init => .init
  | .getBus1 => .getBus1
  | .getBus2 => .getBus2
  | .relUsb => .relUsb

/-- The gate micro-operation of a category (43_peripheral_gate.md R183 to R187). -/
def gateInstr : Category → Instr
  | .gpio => .gateGpio
  | .serial => .gateSerial
  | .adc => .gateAdc
  | .timer => .gateTimer
  | .usb => .gateUsb

/-- R111 and R114: what `upc` names, for a gate order. Total on the sixteen codes. -/
def decodeUop (o : GateOrder) (u : BitVec 4) : Instr :=
  if u = 0 then .cfgInit
  else if u = 1 then .crFull
  else if u = 2 then .lockPoll
  else if u = 3 then .mtSet
  else if u = 4 then .cfgSwitch
  else if u = 5 then gateInstr o.first
  else if u = 6 then gateInstr o.second
  else if u = 7 then gateInstr o.third
  else if u = 8 then gateInstr o.fourth
  else if u = 9 then gateInstr o.fifth
  else if u = 10 then .usbRstRel
  else if u = 11 then .reserved11
  else if u = 12 then .reserved12
  else if u = 13 then .reserved13
  else if u = 14 then .reserved14
  else .uIdle

/-- The instruction a code of either format names. -/
def decode (o : GateOrder) : Code → Instr
  | .cmd c => (decodeCmd c).instr
  | .uop u => decodeUop o u

/-- Why a bit string is not a code. -/
inductive DecodeError where
  /-- a command code is two bits wide (R110) -/
  | commandTooWide
  /-- a micro-operation code is four bits wide (R111) -/
  | uopTooWide
  deriving DecidableEq, Repr

/-- A bit string read as a command code; wider values are refused by name. -/
def commandOfBits (w : Nat) : Except DecodeError Code :=
  if w < 4 then .ok (.cmd (BitVec.ofNat 2 w)) else .error .commandTooWide

/-- A bit string read as a micro-operation code; wider values are refused by name. -/
def uopOfBits (w : Nat) : Except DecodeError Code :=
  if w < 16 then .ok (.uop (BitVec.ofNat 4 w)) else .error .uopTooWide

/-- The upc code of `GATE(c)`: `5 + index of c in GATE_ORDER` (43_peripheral_gate.md R182). -/
def gateUpc (o : GateOrder) (c : Category) : BitVec 4 :=
  if c = o.first then 5
  else if c = o.second then 6
  else if c = o.third then 7
  else if c = o.fourth then 8
  else 9

/-- The code of an instruction (R110, R111, R114). -/
def encode (o : GateOrder) : Instr → Code
  | .init => .cmd 0b00#2
  | .getBus1 => .cmd 0b01#2
  | .getBus2 => .cmd 0b10#2
  | .relUsb => .cmd 0b11#2
  | .cfgInit => .uop 0
  | .crFull => .uop 1
  | .lockPoll => .uop 2
  | .mtSet => .uop 3
  | .cfgSwitch => .uop 4
  | .gateGpio => .uop (gateUpc o .gpio)
  | .gateSerial => .uop (gateUpc o .serial)
  | .gateAdc => .uop (gateUpc o .adc)
  | .gateTimer => .uop (gateUpc o .timer)
  | .gateUsb => .uop (gateUpc o .usb)
  | .usbRstRel => .uop 10
  | .reserved11 => .uop 11
  | .reserved12 => .uop 12
  | .reserved13 => .uop 13
  | .reserved14 => .uop 14
  | .uIdle => .uop 15

/-- The code a row of spec/opcode_table.json stands for, from its bits. A row of 1 or 2 bits is a
command, of 3 or 4 bits a micro-operation. In whole bytes both formats have 8 bits, and the values 0 to
3 name a command and a micro-operation: there the command is meant, since it is what the idle machine
after reset reads (DESIGN CHOICE, log entry 8); 4 to 15 are micro-operations. -/
def tableCode (nbits w : Nat) : Except DecodeError Code :=
  if nbits ≤ 2 then commandOfBits w
  else if nbits ≤ 4 then uopOfBits w
  else if w < 4 then commandOfBits w
  else uopOfBits w

/-- The instruction of a table row's bits, under the default gate order the table's mnemonics are
written for. -/
def decodeTableWord (nbits w : Nat) : Option Instr :=
  match tableCode nbits w with
  | .ok c => some (decode Machine.defaultGateOrder c)
  | .error _ => none

end Sys2Proof
end

