-- ==== Sys2Proof/Machine/Gates.lean ====
section
/-! DEFINITION. The Peripheral Gate Controller micro-operations (43_peripheral_gate.md). -/

namespace Sys2Proof.Machine

/-- The enable register of a category, `PENR(GATE_REG(c))`. -/
def gateTarget (p : Params) (c : Category) : Reg := penr (gateReg p.gateMap c)

/-- The read-modify-write of `GATE(c)` (R182): `T <- BusRead32(PENRg) ; BusWrite32(PENRg, T | m)`. -/
def State.enableClocks (s : State) (c : Category) : State :=
  s.readModifyWrite (gateTarget s.params c) (· ||| gateMask s.params.gateMap c)

/-- `GATE(c)` (R182), with the completion of R188 in place of the increment at `upc = 9`. -/
def State.gate (s : State) (c : Category) : Result :=
  s.selected (gateUpc s.params.gateOrder c) <| .next <|
    if s.upc = 9 then (s.enableClocks c).complete else (s.enableClocks c).goto (s.upc + 1)

/-- GATE_GPIO (R183). -/
def execGateGpio (s : State) : Result := s.gate .gpio

/-- GATE_SERIAL (R184). -/
def execGateSerial (s : State) : Result := s.gate .serial

/-- GATE_ADC (R185). -/
def execGateAdc (s : State) : Result := s.gate .adc

/-- GATE_TIMER (R186). -/
def execGateTimer (s : State) : Result := s.gate .timer

/-- GATE_USB (R187). -/
def execGateUsb (s : State) : Result := s.gate .usb

/-- The reset register that holds the USB controller, `PRSTR(USB_RST_REG)`. -/
def usbRstTarget (p : Params) : Reg := prstr p.usbRst.reg

/-- USB_RST_REL (R191): `T <- BusRead32(PRSTRr) ; BusWrite32(PRSTRr, T & ~m)`. -/
def execUsbRstRel (s : State) : Result :=
  s.selected 10 <| .next <|
    (s.readModifyWrite (usbRstTarget s.params) (· &&& ~~~usbRstMask s.params)).finish

end Sys2Proof.Machine
end

