-- ==== Sys2Proof/Machine/Idle.lean ====
section
/-! DEFINITION. `U_IDLE`, and the `upc` codes that name no micro-operation (30_encoding.md R111, R114). -/

namespace Sys2Proof.Machine

/-- U_IDLE: no operation; SEQ waits for a command (R111, 44_commands.md R200). Waiting changes nothing. -/
def execUIdle (s : State) : Result := .next s

/-- RESERVED_11: no micro-operation, stuck (R114). -/
def execReserved11 (_ : State) : Result := .fault .reservedUpc

/-- RESERVED_12: no micro-operation, stuck (R114). -/
def execReserved12 (_ : State) : Result := .fault .reservedUpc

/-- RESERVED_13: no micro-operation, stuck (R114). -/
def execReserved13 (_ : State) : Result := .fault .reservedUpc

/-- RESERVED_14: no micro-operation, stuck (R114). -/
def execReserved14 (_ : State) : Result := .fault .reservedUpc

end Sys2Proof.Machine
end

