-- ==== Sys2Proof/Machine/MemoryTiming.lean ====
section
/-! DEFINITION. The Memory-Timing Adjuster micro-operation (41_memory_timing.md). -/

namespace Sys2Proof.Machine

/-- MT_SET (R161). -/
def execMtSet (s : State) : Result :=
  s.selected 3 (.next (((s.busWrite32 .mtcr (mtWord s.params)).goto 4).enter phMemoryTimingSet))

end Sys2Proof.Machine
end

