-- ==== Sys2Proof/Machine/Multiplier.lean ====
section
/-! DEFINITION. The Clock Selector/Multiplier micro-operations (40_clock_multiplier.md). -/

namespace Sys2Proof.Machine

/-- CFG_INIT (R141), refused where it would change a running multiplier (93 U13, log entry 12). -/
def execCfgInit (s : State) : Result :=
  s.selected 0 <| .next <|
    if s.changesRunningMultiplier (cfgInitWord s.params) then s.refuse .multiplierChangeWhileEnabled
    else (s.busWrite32 .cfgr (cfgInitWord s.params)).goto 1

/-- CR_FULL (R142). -/
def execCrFull (s : State) : Result :=
  s.selected 1 (.next (((s.busWrite32 .cr (crWord s.params)).goto 2).enter phOscillatorsStarting))

/-- The state after a poll (R143): `T <- BusRead32(CR) ; polls <- polls + 1`, and on only if the bit
`MUL_LOCK` of the value read is 1. -/
def State.pollOnce (s : State) : State :=
  let r := (s.loadT .cr).countPoll
  if s.params.layout.mulLock.get r.t = 1 then (r.goto 3).enter phMultiplierLocked else r.goto 2

/-- LOCK_POLL (R143, R147). -/
def execLockPoll (s : State) : Result :=
  s.selected 2 (if s.capReached then .fault .pollCapReached else .next s.pollOnce)

end Sys2Proof.Machine
end

