-- ==== Sys2Proof/Machine/Dispatch.lean ====
section
/-! DEFINITION. One arm per row of the opcode table. -/

namespace Sys2Proof.Machine

def exec (i : Instr) (s : State) : Host.Outcome State Fault Refusal :=
  match i with
  | .init => Sys2Proof.Machine.execInit s
  | .getBus1 => Sys2Proof.Machine.execGetBus1 s
  | .getBus2 => Sys2Proof.Machine.execGetBus2 s
  | .relUsb => Sys2Proof.Machine.execRelUsb s
  | .cfgInit => Sys2Proof.Machine.execCfgInit s
  | .crFull => Sys2Proof.Machine.execCrFull s
  | .lockPoll => Sys2Proof.Machine.execLockPoll s
  | .mtSet => Sys2Proof.Machine.execMtSet s
  | .cfgSwitch => Sys2Proof.Machine.execCfgSwitch s
  | .gateGpio => Sys2Proof.Machine.execGateGpio s
  | .gateSerial => Sys2Proof.Machine.execGateSerial s
  | .gateAdc => Sys2Proof.Machine.execGateAdc s
  | .gateTimer => Sys2Proof.Machine.execGateTimer s
  | .gateUsb => Sys2Proof.Machine.execGateUsb s
  | .usbRstRel => Sys2Proof.Machine.execUsbRstRel s
  | .reserved11 => Sys2Proof.Machine.execReserved11 s
  | .reserved12 => Sys2Proof.Machine.execReserved12 s
  | .reserved13 => Sys2Proof.Machine.execReserved13 s
  | .reserved14 => Sys2Proof.Machine.execReserved14 s
  | .uIdle => Sys2Proof.Machine.execUIdle s

end Sys2Proof.Machine
end

