-- ==== Sys2Proof/Machine/Hazards.lean ====
section
/-! DEFINITION. The four ordering hazards (70_reset_and_hazards.md R270 to R275), two of the state and two
of the trace. -/

namespace Sys2Proof.Machine

/-- The system clock is taken from the multiplier output. -/
def State.onMultiplier (s : State) : Bool :=
  s.params.layout.sysSrc.get s.cfgr == s.params.enc.sysSrcMul

/-- `HZ_FETCH` (R271): too few wait states at the fast clock. -/
def State.hzFetch (s : State) : Bool :=
  s.onMultiplier && decide ((s.params.layout.ws.get s.mtcr).toNat < s.params.wsTarget.val)

/-- `HZ_UNLOCKED` (R272): on a multiplier that is not enabled and locked. -/
def State.hzUnlocked (s : State) : Bool :=
  s.onMultiplier &&
    !(s.params.layout.mulEn.get s.cr == 1 && s.params.layout.mulLock.get s.cr == 1)

/-- One of the three Peripheral Enable Registers. -/
def isPenr : Reg → Bool
  | .penr0 | .penr1 | .penr2 => true
  | _ => false

/-- Where a reader of the trace stands in the last `INIT`: none has begun, its switch is still to come,
or its switch has been written. -/
inductive SwitchMark where
  | noInit | before | after
  deriving DecidableEq, Repr

/-- The mark after one more event. -/
def SwitchMark.next (p : Params) (m : SwitchMark) : Event → SwitchMark
  | .cmd .init true => .before
  | .wr .cfgr v => if m = .before ∧ v = cfgSwitchWord p then .after else m
  | _ => m

/-- The event is an enable write of an `INIT` whose switch is still to come. -/
def SwitchMark.early (m : SwitchMark) : Event → Bool
  | .wr x _ => isPenr x && m == .before
  | _ => false

/-- Reading a trace from a mark on: an early enable write occurs. -/
def earlyGateFrom (p : Params) : SwitchMark → List Event → Bool
  | _, [] => false
  | m, e :: es => m.early e || earlyGateFrom p (m.next p e) es

/-- The mark at the end of a trace. -/
def switchMarkFrom (p : Params) : SwitchMark → List Event → SwitchMark
  | m, [] => m
  | m, e :: es => switchMarkFrom p (m.next p e) es

/-- `HZ_EARLY_GATE` (R273): a `Wr(PENRg, _)` made by an `INIT` before the `Wr(CFGR, CFG_SWITCH_WORD)` of
that `INIT`. -/
def hzEarlyGate (p : Params) (tr : List Event) : Bool := earlyGateFrom p .noInit tr

/-- The event is a read of CR. -/
def isReadCr : Event → Bool
  | .rd .cr _ => true
  | _ => false

/-- The event is a write of CR. -/
def isWriteCr : Event → Bool
  | .wr .cr _ => true
  | _ => false

/-- `HZ_CR_RMW` in its detectable form (R275): an `Rd(CR, _)` immediately followed by a `Wr(CR, _)`. -/
def hzCrRmw : List Event → Bool
  | e :: f :: es => (isReadCr e && isWriteCr f) || hzCrRmw (f :: es)
  | _ => false

/-- The first hazard the state or its trace shows, if any. DESIGN CHOICE (log entry 11): where several hold
at once, the first in this order names the fault; the spec gives none. -/
def State.hazard (s : State) : Option Fault :=
  if s.hzFetch then some .hzFetch
  else if s.hzUnlocked then some .hzUnlocked
  else if hzEarlyGate s.params s.trace then some .hzEarlyGate
  else if hzCrRmw s.trace then some .hzCrRmw
  else none

end Sys2Proof.Machine
end

