-- ==== Sys2Proof/Machine/Schedule.lean ====
section
/-! DEFINITION. Which of the three agents moves next (00_scope.md R6, 44_commands.md R211), what SEQ or
HOST then runs, and how an instruction is placed to be the next one. -/

namespace Sys2Proof.Machine

/-- What happens in the next step. -/
inductive Turn where
  /-- what is asked is refused: the model does not run these parameters -/
  | refuse (r : Refusal)
  /-- the state is given no meaning, or no step is enabled in it -/
  | stop (f : Fault)
  /-- ENV takes `EnvLock` -/
  | env
  /-- SEQ takes the micro-operation of `upc`, or HOST issues a command, or the block waits -/
  | run (i : Instr)
  deriving DecidableEq, Repr

/-- Why parameters are refused, if they are (92 D11, 30_encoding.md R113, 00_scope.md R8). DESIGN CHOICE (log
entry 15): where several reasons hold, the first in this order is recorded; the spec gives none. -/
def paramsRefusal (p : Params) : Option Refusal :=
  if p.gateMap.whole = false then some .splitGateCategory
  else if p.multiplierSupported = false then some .unsupportedMultiplierSetting
  else if p.wellFormed = false then some .illFormedParameters
  else none

/-- Why no step is taken from the state, if so: a hazard (70_reset_and_hazards.md R270) or a phase code
without a meaning (30_encoding.md R114, 93 U10). DESIGN CHOICE (log entry 11): where both hold, the hazard
names the stop. -/
def State.stopped (s : State) : Option Fault :=
  match s.hazard with
  | some f => some f
  | none => if s.phase.toNat ≤ 5 then none else some .reservedPhase

/-- ENV acts now: `EnvLock` is enabled, the run is not stopped at the poll cap, and `LOCK_ORACLE`
(10_state.md R28), or the free draw where there is none (R27), takes it. -/
def State.envActs (s : State) : Bool :=
  s.lockEnabled && !s.capReached &&
    match s.params.lockOracle with
    | .free => Config.envTakes s.draws
    | .after n => s.polls == n
    | .never => false

/-- The code the block runs next: while busy the one in `upc`, else the next command at the port, else
the idle code (44_commands.md R200, R211). DESIGN CHOICE (log entry 25): in a constructed state where `busy`
and `upc` disagree, a reserved `upc` with `busy = 0` among them, `busy` alone decides. -/
def State.fetch (s : State) : Code :=
  if s.busy then .uop s.upc
  else match s.port with
    | c :: _ => .cmd c
    | [] => .uop upcIdle

/-- The agent that moves next. -/
def State.turn (s : State) : Turn :=
  match paramsRefusal s.params with
  | some r => .refuse r
  | none =>
    match s.stopped with
    | some f => .stop f
    | none => if s.envActs then .env else .run (decode s.params.gateOrder s.fetch)

/-- One more step is being taken: the draw counter moves on. -/
def State.tick (s : State) : State := { s with draws := s.draws + 1 }

/-- What a step does around the operation it runs: the counter moves on, and an idle block takes the
command it issues off the list. -/
def State.advance (s : State) : State :=
  if s.busy then s.tick else { s.tick with port := s.port.tail }

/-- What a step leaves that refuses what is asked, the whole sequence (00_scope.md R15, 30_encoding.md
R113, 92 D11; log entry 15): a command is taken off the port and recorded as refused (44_commands.md R200);
a micro-operation is not carried out and stays selected; a block of which nothing is asked waits. -/
def State.turnAway (s : State) (r : Refusal) : State :=
  match s.fetch with
  | .cmd c => (s.advance.record (.cmd (decodeCmd c) false)).refuse r
  | .uop _ => if s.busy then s.advance.refuse r else s.advance

/-- The state with a code placed to be the next one run: a command is put first at the port of the idle
block; a micro-operation code is put in `upc` of the busy block, but for `U_IDLE`, the idle block with
nothing at the port. -/
def State.place (s : State) : Code → State
  | .cmd c => { s with busy := false, upc := upcIdle, port := c :: s.port }
  | .uop u =>
    if u = upcIdle then { s with busy := false, upc := upcIdle, port := [] }
    else { s with busy := true, upc := u }

end Sys2Proof.Machine
end

