-- ==== Sys2Proof/Machine/Step.lean ====
section
/-! DEFINITION. One step of the machine, and an instruction placed where it is fetched. -/

namespace Sys2Proof.Machine

/-- One step: the step of the agent whose turn it is (44_commands.md R211), or the refusal of what is
asked (00_scope.md R15). -/
def step (s : State) : Host.Outcome State Fault Refusal :=
  match s.turn with
  | .refuse r => .next (s.turnAway r)
  | .stop f => .fault f
  | .env => .next s.envLock.tick
  | .run i => exec i s.advance

/-- The state with the instruction of a table row's bits placed to run in the next step (log entry 8: the
block has no program memory; a command comes from HOST, a micro-operation from `upc`). Bits that are no
code change nothing. -/
def State.withFetchWord (s : State) (nbits w : Nat) : State :=
  match tableCode nbits w with
  | .ok c => s.place c
  | .error _ => s

end Sys2Proof.Machine
end

