-- ==== Sys2Proof/Machine/Clocks.lean ====
section
/-! DEFINITION. The derived observables of the clock tree (10_state.md R48): functions of the state, not
state. `none` is the spec's `undefined`. Frequencies are in units, exact rationals. -/

namespace Sys2Proof.Machine

/-- `divisor(code)` of a field, the inverse of `ENC` (R48): undefined for a code `ENC` does not list. -/
def ahbDivisor (e : Enc) (code : Word) : Option ℚ := if code = e.ahbDiv1 then some 1 else none

def apb1Divisor (e : Enc) (code : Word) : Option ℚ :=
  if code = e.apb1Div1 then some 1 else if code = e.apb1Div2 then some 2 else none

def apb2Divisor (e : Enc) (code : Word) : Option ℚ := if code = e.apb2Div1 then some 1 else none

def adcDivisor (e : Enc) (code : Word) : Option ℚ :=
  if code = e.adcDiv2 then some 2 else if code = e.adcDiv6 then some 6 else none

/-- A clock divided by a divisor, undefined if either is. -/
def divided (clock divisor : Option ℚ) : Option ℚ :=
  match clock, divisor with
  | some f, some d => some (f / d)
  | _, _ => none

/-- `mul_out(s)`. -/
def State.mulOut (s : State) : Option ℚ :=
  let l := s.params.layout
  if l.mulEn.get s.cr = 1 ∧ l.mulLock.get s.cr = 1 ∧
      l.mulSrc.get s.cfgr = s.params.enc.mulSrcExtDivided ∧ l.mulFact.get s.cfgr = s.params.enc.mulFactX9 then
    some s.params.targetUnits
  else none

/-- `sysclk(s)`. -/
def State.sysclk (s : State) : Option ℚ :=
  let l := s.params.layout
  if l.sysSrc.get s.cfgr = s.params.enc.sysSrcInt ∧ l.ioscEn.get s.cr = 1 then some s.params.fIntUnits
  else if l.sysSrc.get s.cfgr = s.params.enc.sysSrcMul then s.mulOut
  else none

/-- `ahb(s)`. -/
def State.ahb (s : State) : Option ℚ :=
  divided s.sysclk (ahbDivisor s.params.enc (s.params.layout.ahbDiv.get s.cfgr))

/-- `apb1(s)`. -/
def State.apb1 (s : State) : Option ℚ :=
  divided s.sysclk (apb1Divisor s.params.enc (s.params.layout.apb1Div.get s.cfgr))

/-- `apb2(s)`. -/
def State.apb2 (s : State) : Option ℚ :=
  divided s.sysclk (apb2Divisor s.params.enc (s.params.layout.apb2Div.get s.cfgr))

/-- `adcclk(s)`: divided from the APB2 clock. -/
def State.adcclk (s : State) : Option ℚ :=
  divided s.apb2 (adcDivisor s.params.enc (s.params.layout.adcDiv.get s.cfgr))

end Sys2Proof.Machine
end

