-- ==== Sys2Proof/Safety.lean ====
section
/-! DEFINITION. What counts as a safe run of the block: the two invariants behind the unreachability of
the hazards (70_reset_and_hazards.md R274), the end of a run (44_commands.md R213), runs, and the
fairness assumption LOCK_EVENTUALLY (10_state.md R27). -/

namespace Sys2Proof.Machine

/-- The status bit `MUL_LOCK` of a CR word. -/
def lockBit (p : Params) (v : Word) : Word := p.layout.mulLock.get v

/-- `CR_WORD | mask(MUL_LOCK)`: what CR holds once the lock is set (95_test_vectors.md P1). -/
def crLocked (p : Params) : Word := crWord p ||| p.layout.mulLock.mask

/-- The phases in which the machine can stand at a value of `upc` (44_commands.md R209, 10_state.md R41). -/
def placeOk (u : BitVec 4) (ph : BitVec 3) : Bool :=
  match u.toNat with
  | 0 | 1 => ph == phReset
  | 2 => ph == phOscillatorsStarting
  | 3 => ph == phMultiplierLocked
  | 4 => ph == phMemoryTimingSet
  | 5 | 6 | 7 | 8 | 9 => ph == phClockSwitched
  | 10 | 15 => ph == phReset || ph == phPeripheralsEnabled
  | _ => false

/-- The state invariant: where the sequencer stands, and what the registers hold there. -/
structure State.Inv (s : State) : Prop where
  /-- the parameters are well-formed (00_scope.md R8) -/
  wf : s.params.wellFormed = true
  /-- `busy = 0` if and only if `upc = U_IDLE` (R42) -/
  idle : s.busy = false ↔ s.upc = upcIdle
  /-- `init_done = 1` if and only if `phase = PeripheralsEnabled` (R42) -/
  done : s.initDone = true ↔ s.phase = phPeripheralsEnabled
  /-- while `MUL_EN = 0`, `MUL_LOCK = 0` (R25, R29) -/
  lockOff : s.params.layout.mulEn.get s.cr = 0 → s.params.layout.mulLock.get s.cr = 0
  place : placeOk s.upc s.phase = true
  /-- before the oscillators are started the multiplier is off, the internal oscillator drives the
  system, and nothing has been polled -/
  fresh : s.phase = phReset → s.params.layout.mulEn.get s.cr = 0 ∧
    s.params.layout.sysSrc.get s.cfgr = s.params.enc.sysSrcInt ∧ s.polls = 0
  configured : s.upc = 1 ∨ 1 ≤ s.phase.toNat ∧ s.phase.toNat ≤ 3 → s.cfgr = cfgInitWord s.params
  started : s.phase = phOscillatorsStarting → s.cr = crWord s.params ∨ s.cr = crLocked s.params
  locked : 2 ≤ s.phase.toNat → s.cr = crLocked s.params
  timed : 3 ≤ s.phase.toNat → s.mtcr = mtWord s.params
  switched : 4 ≤ s.phase.toNat → s.cfgr = cfgSwitchWord s.params

/-- The three marks of the order invariant (41_memory_timing.md R162, 95 S1): a read of CR that shows
the lock, a write of MTCR, a write of CFGR that selects the multiplier. -/
def isOrderMark (p : Params) : Event → Bool
  | .rd .cr v => lockBit p v == 1
  | .wr .mtcr _ => true
  | .wr .cfgr w => p.layout.sysSrc.get w == p.enc.sysSrcMul
  | _ => false

/-- The marks of one bring-up, in the order R162 demands. -/
def orderMarks (p : Params) : List Event :=
  [.rd .cr (crLocked p), .wr .mtcr (mtWord p), .wr .cfgr (cfgSwitchWord p)]

/-- The trace invariant: what the events so far look like. -/
structure State.TraceInv (s : State) : Prop where
  noEarlyGate : hzEarlyGate s.params s.trace = false
  noCrRmw : hzCrRmw s.trace = false
  /-- before the switch of a running INIT, that INIT is the last event to move the mark -/
  begun : s.upc.toNat ≤ 4 → switchMarkFrom s.params .noInit s.trace = .before
  /-- once the clock is switched, the INIT's switch is in the trace -/
  mark : 4 ≤ s.phase.toNat → switchMarkFrom s.params .noInit s.trace = .after
  /-- the write of CR comes straight after the first write of CFGR (70_reset_and_hazards.md R274 (c)) -/
  beforeCr : s.upc = 1 → s.trace.getLast? = some (.wr .cfgr (cfgInitWord s.params))
  /-- every write of CR is of the constant (20_memory.md R81) -/
  crFull : ∀ v, .wr .cr v ∈ s.trace → v = crWord s.params
  /-- the marks so far are the first of the three, as many as the phase says -/
  order : s.trace.filter (isOrderMark s.params) = (orderMarks s.params).take (s.phase.toNat - 1)
  /-- `polls` counts the reads of CR (R46) -/
  polls : s.polls = s.trace.countP isReadCr

/-- The register an operation writes on the bus, if any (20_memory.md R71). -/
def writtenReg (p : Params) : Instr → Option Reg
  | .cfgInit | .cfgSwitch => some .cfgr
  | .crFull => some .cr
  | .mtSet => some .mtcr
  | .gateGpio => some (gateTarget p .gpio)
  | .gateSerial => some (gateTarget p .serial)
  | .gateAdc => some (gateTarget p .adc)
  | .gateTimer => some (gateTarget p .timer)
  | .gateUsb => some (gateTarget p .usb)
  | .usbRstRel => some (usbRstTarget p)
  | _ => none

/-- The enable bits of the eight peripherals that stand in enable register `g` (43_peripheral_gate.md
R192: the OR of `GATE_MASK(c)` over the categories of that register). -/
def enabledBits (p : Params) (g : Fin 3) : Word :=
  (p.gateMap.all.map fun b => if b.reg = g then bitMask b.bit else 0).foldl (· ||| ·) 0

/-- A run of a number of steps, ended by the first that answers no next state. -/
def State.run : Nat → State → Result
  | 0, s => .next s
  | k + 1, s =>
    match step s with
    | .next t => t.run k
    | .fault f => .fault f
    | .refused r => .refused r

/-- A run of a HOST program is over: every command has been issued and `busy = 0` (44_commands.md R213). -/
def State.over (s : State) : Bool := s.port.isEmpty && !s.busy

/-- A good end (R213): over, nothing refused, no hazard. A hazard in an earlier state would have stopped
the run there, since `step` faults on it. -/
def State.goodEnd (s : State) : Bool := s.over && !s.refused && s.hazard.isNone

/-- An infinite run of the machine. -/
def IsRun (σ : Nat → State) : Prop := ∀ n, step (σ n) = .next (σ (n + 1))

/-- `LOCK_EVENTUALLY` of a run (10_state.md R27): an `EnvLock` that stays enabled is eventually taken. -/
def LockEventually (σ : Nat → State) : Prop :=
  ∀ n, (∀ m, n ≤ m → (σ m).lockEnabled = true) → ∃ m, n ≤ m ∧ (σ m).turn = .env

end Sys2Proof.Machine
end

