-- ==== Sys2Proof/Certificates/Slice0/Obligations.lean ====
section
/-! DEFINITION. The statements for the provers. Each is written from the rules its docstring cites. -/

open Sys2Proof Sys2Proof.Machine

/-! ### Encoding -/

/-- 30_encoding.md R110, R111, R114, 43_peripheral_gate.md R182: for every gate order, every row of the
table decodes from its code. -/
def Obligations.DecodeOfEncodeIsTheInstruction : Prop :=
  ∀ o : GateOrder, o.isPermutation = true → ∀ i : Instr, decode o (encode o i) = i

/-- 30_encoding.md R110, R111, R114: no two codes of a format name the same operation, so the code of what
a code names is that code. -/
def Obligations.EncodeOfDecodeIsTheCode : Prop :=
  ∀ o : GateOrder, o.isPermutation = true → ∀ c : Code, encode o (decode o c) = c

/-- 30_encoding.md R110, R111, R114: some codes written out bit by bit from the two tables. -/
def Obligations.CodesOfTheTablesDecode : Prop :=
  decodeTableWord 2 0b00 = some .init ∧ decodeTableWord 2 0b01 = some .getBus1 ∧
  decodeTableWord 2 0b10 = some .getBus2 ∧ decodeTableWord 2 0b11 = some .relUsb ∧
  decodeTableWord 4 0b0000 = some .cfgInit ∧ decodeTableWord 4 0b0010 = some .lockPoll ∧
  decodeTableWord 4 0b0011 = some .mtSet ∧ decodeTableWord 4 0b0100 = some .cfgSwitch ∧
  decodeTableWord 4 0b0101 = some .gateGpio ∧ decodeTableWord 4 0b1001 = some .gateUsb ∧
  decodeTableWord 4 0b1010 = some .usbRstRel ∧ decodeTableWord 4 0b1011 = some .reserved11 ∧
  decodeTableWord 4 0b1111 = some .uIdle ∧ decodeTableWord 4 0b10000 = none

/-- 30_encoding.md R108: the two CFGR words differ only inside `SYS_SRC` and `ADC_DIV`. -/
def Obligations.ConfigurationWordsDifferOnlyInSourceAndAdcDivider : Prop :=
  ∀ p : Params, p.wellFormed = true → ∀ i : Nat, i < 32 →
    (cfgSwitchWord p).getLsbD i ≠ (cfgInitWord p).getLsbD i →
    p.layout.sysSrc.covers i = true ∨ p.layout.adcDiv.covers i = true

/-! ### Commands -/

/-- 44_commands.md R201: an INIT in the phase `Reset` is accepted and starts the micro-program. -/
def Obligations.InitFromResetStartsTheSequencer : Prop :=
  ∀ s : State, s.busy = false → s.phase = phReset →
    exec .init s = .next { s with busy := true, upc := 0, trace := s.trace ++ [.cmd .init true] }

/-- 44_commands.md R202: an INIT in any other phase is refused: the sticky mark and the trace change,
nothing else. -/
def Obligations.InitAfterResetIsRefused : Prop :=
  ∀ s : State, s.busy = false → s.phase ≠ phReset →
    exec .init s = .next { s with refused := true, trace := s.trace ++ [.cmd .init false] }

/-- 44_commands.md R205, R206, R207: the two frequency commands answer half the target and the target,
36 and 72 units, and change nothing but `resp` and the trace. Where the constant does not fit 32 bits the
word is free (log entry 7), and the command completes all the same. -/
def Obligations.FrequencyCommandsAnswerTheConstants : Prop :=
  ∀ s : State, s.params.wellFormed = true → s.busy = false →
    exec .getBus1 s = .next { s with
      resp := freqWord (bus1Freq s.params),
      trace := s.trace ++ [.cmd .getBus1 true, .resp (freqWord (bus1Freq s.params))] } ∧
    exec .getBus2 s = .next { s with
      resp := freqWord (bus2Freq s.params),
      trace := s.trace ++ [.cmd .getBus2 true, .resp (freqWord (bus2Freq s.params))] } ∧
    (36 * s.params.freqUnit < 2 ^ 32 →
      (freqWord (bus1Freq s.params)).toNat = 36 * s.params.freqUnit) ∧
    (72 * s.params.freqUnit < 2 ^ 32 →
      (freqWord (bus2Freq s.params)).toNat = 72 * s.params.freqUnit)

/-- 44_commands.md R204: REL_USB is accepted in any phase and selects the reset-release
micro-operation. -/
def Obligations.ReleaseUsbStartsTheReleaseInAnyPhase : Prop :=
  ∀ s : State, s.busy = false →
    exec .relUsb s = .next { s with busy := true, upc := 10, trace := s.trace ++ [.cmd .relUsb true] }

/-- 44_commands.md R200: while `busy = 1` no command is enabled; the model's name for that stop is
`portClosed` (log entry 13). -/
def Obligations.PortIsClosedWhileBusy : Prop :=
  ∀ (s : State) (i : Instr), i.isCommand = true → s.busy = true → exec i s = .fault .portClosed

/-! ### Clock Selector/Multiplier -/

/-- 40_clock_multiplier.md R141, 30_encoding.md R105: CFG_INIT writes all of CFGR, with the multiplier's
source and factor, the internal oscillator as system clock and the bus dividers, every other bit 0, and
changes nothing else but `upc` and the trace. The premise leaves out a write that would change the codes
of a running multiplier (93_implementation_defined.md U13), which
`RunningMultiplierIsNotReconfigured` covers. -/
def Obligations.CfgInitProgramsTheConfiguration : Prop :=
  ∀ s : State, s.params.wellFormed = true → s.busy = true → s.upc = 0 →
    s.changesRunningMultiplier (cfgInitWord s.params) = false →
    ∃ t : State, exec .cfgInit s = .next t ∧
      t = { s with cfgr := t.cfgr, upc := 1, trace := s.trace ++ [.wr .cfgr t.cfgr] } ∧
      s.params.layout.mulSrc.get t.cfgr = s.params.enc.mulSrcExtDivided ∧
      s.params.layout.mulFact.get t.cfgr = s.params.enc.mulFactX9 ∧
      s.params.layout.sysSrc.get t.cfgr = s.params.enc.sysSrcInt ∧
      s.params.layout.apb1Div.get t.cfgr = s.params.enc.apb1Div2 ∧
      s.params.layout.ahbDiv.get t.cfgr = s.params.enc.ahbDiv1 ∧
      s.params.layout.apb2Div.get t.cfgr = s.params.enc.apb2Div1 ∧
      s.params.layout.adcDiv.get t.cfgr = 0 ∧ s.params.layout.usbDiv.get t.cfgr = 0 ∧
      ∀ i : Nat, i < 32 →
        ([s.params.layout.mulSrc, s.params.layout.mulFact, s.params.layout.sysSrc,
          s.params.layout.apb1Div, s.params.layout.ahbDiv, s.params.layout.apb2Div].any
            fun f => f.covers i) = false →
        t.cfgr.getLsbD i = false

/-- 93_implementation_defined.md U13, 10_state.md R33, 00_scope.md R15: a CFGR write that would change the
multiplier's source or factor while the multiplier is enabled is refused, by CFG_INIT and by CFG_SWITCH:
the sticky mark and the model's record of the reason (log entry 24) are set and nothing is carried out. That
the machine then stays at the micro-operation is the model's choice, log entry 12. -/
def Obligations.RunningMultiplierIsNotReconfigured : Prop :=
  ∀ s : State, s.busy = true → s.params.layout.mulEn.get s.cr = 1 →
    (s.upc = 0 →
      (s.params.layout.mulSrc.get (cfgInitWord s.params) ≠ s.params.layout.mulSrc.get s.cfgr ∨
        s.params.layout.mulFact.get (cfgInitWord s.params) ≠ s.params.layout.mulFact.get s.cfgr) →
      exec .cfgInit s = .next { s with
        refused := true, reason := some .multiplierChangeWhileEnabled }) ∧
    (s.upc = 4 →
      (s.params.layout.mulSrc.get (cfgSwitchWord s.params) ≠ s.params.layout.mulSrc.get s.cfgr ∨
        s.params.layout.mulFact.get (cfgSwitchWord s.params) ≠ s.params.layout.mulFact.get s.cfgr) →
      exec .cfgSwitch s = .next { s with
        refused := true, reason := some .multiplierChangeWhileEnabled })

/-- 40_clock_multiplier.md R142, 30_encoding.md R106: CR_FULL enables both oscillators and the multiplier
in one full-word write of a constant; `MUL_LOCK` keeps its value, every unnamed bit becomes 0. -/
def Obligations.CrFullEnablesOscillatorsAndMultiplier : Prop :=
  ∀ s : State, s.params.wellFormed = true → s.busy = true → s.upc = 1 →
    ∃ t : State, exec .crFull s = .next t ∧
      t = { s with cr := t.cr, upc := 2, phase := phOscillatorsStarting,
                   trace := s.trace ++ [.wr .cr (crWord s.params)] } ∧
      s.params.layout.ioscEn.get t.cr = 1 ∧ s.params.layout.xoscEn.get t.cr = 1 ∧
      s.params.layout.xoscTrim.get t.cr = s.params.trimValue ∧ s.params.layout.mulEn.get t.cr = 1 ∧
      s.params.layout.mulLock.get t.cr = s.params.layout.mulLock.get s.cr ∧
      ∀ i : Nat, i < 32 →
        ([s.params.layout.ioscEn, s.params.layout.xoscEn, s.params.layout.xoscTrim,
          s.params.layout.mulEn, s.params.layout.mulLock].any fun f => f.covers i) = false →
        t.cr.getLsbD i = false

/-- 40_clock_multiplier.md R143: a poll loads CR into `T`, counts itself, writes no register, and goes on
to `upc = 3` in the phase `MultiplierLocked` exactly if `MUL_LOCK` reads 1. -/
def Obligations.LockPollGoesOnOnlyWhenLocked : Prop :=
  ∀ s : State, s.busy = true → s.upc = 2 → s.capReached = false →
    (s.params.layout.mulLock.get s.cr = 1 →
      exec .lockPoll s = .next { s with
        t := s.cr, polls := s.polls + 1, upc := 3, phase := phMultiplierLocked,
        trace := s.trace ++ [.rd .cr s.cr] }) ∧
    (s.params.layout.mulLock.get s.cr ≠ 1 →
      exec .lockPoll s = .next { s with
        t := s.cr, polls := s.polls + 1, upc := 2, trace := s.trace ++ [.rd .cr s.cr] })

/-- 40_clock_multiplier.md R147: with `POLL_CAP = K`, the run stops at the poll when `polls = K`; ENV is
not asked any more. Where exactly the model stops is log entry 9. -/
def Obligations.PollCapStopsTheRun : Prop :=
  ∀ s : State, s.params.wellFormed = true → s.stopped = none → s.busy = true → s.upc = 2 →
    s.params.pollCap = some s.polls →
    exec .lockPoll s = .fault .pollCapReached ∧ step s = .fault .pollCapReached

/-! ### Memory timing and clock switch -/

/-- 41_memory_timing.md R161, 30_encoding.md R107: MT_SET sets the wait states and the prefetch enable and
clears every other bit of MTCR, in one full-word write. -/
def Obligations.MtSetRaisesTheWaitStates : Prop :=
  ∀ s : State, s.params.wellFormed = true → s.busy = true → s.upc = 3 →
    ∃ t : State, exec .mtSet s = .next t ∧
      t = { s with mtcr := t.mtcr, upc := 4, phase := phMemoryTimingSet,
                   trace := s.trace ++ [.wr .mtcr t.mtcr] } ∧
      (s.params.layout.ws.get t.mtcr).toNat = s.params.wsTarget.val ∧
      s.params.layout.pfEn.get t.mtcr = 1 ∧ s.params.layout.hcEn.get t.mtcr = 0 ∧
      ∀ i : Nat, i < 32 → s.params.layout.ws.covers i = false → s.params.layout.pfEn.covers i = false →
        t.mtcr.getLsbD i = false

/-- 42_clock_switch.md R172, 30_encoding.md R108: CFG_SWITCH writes all of CFGR: the multiplier output as
system clock, the ADC divider 6, the multiplier fields and bus dividers as CFG_INIT writes them, every
other bit 0. The premise is that of `CfgInitProgramsTheConfiguration`. -/
def Obligations.CfgSwitchSelectsTheMultiplier : Prop :=
  ∀ s : State, s.params.wellFormed = true → s.busy = true → s.upc = 4 →
    s.changesRunningMultiplier (cfgSwitchWord s.params) = false →
    ∃ t : State, exec .cfgSwitch s = .next t ∧
      t = { s with cfgr := t.cfgr, upc := 5, phase := phClockSwitched,
                   trace := s.trace ++ [.wr .cfgr t.cfgr] } ∧
      s.params.layout.sysSrc.get t.cfgr = s.params.enc.sysSrcMul ∧
      s.params.layout.adcDiv.get t.cfgr = s.params.enc.adcDiv6 ∧
      s.params.layout.mulSrc.get t.cfgr = s.params.enc.mulSrcExtDivided ∧
      s.params.layout.mulFact.get t.cfgr = s.params.enc.mulFactX9 ∧
      s.params.layout.apb1Div.get t.cfgr = s.params.enc.apb1Div2 ∧
      s.params.layout.ahbDiv.get t.cfgr = s.params.enc.ahbDiv1 ∧
      s.params.layout.apb2Div.get t.cfgr = s.params.enc.apb2Div1 ∧
      s.params.layout.usbDiv.get t.cfgr = 0 ∧
      ∀ i : Nat, i < 32 →
        ([s.params.layout.sysSrc, s.params.layout.adcDiv, s.params.layout.mulSrc,
          s.params.layout.mulFact, s.params.layout.apb1Div, s.params.layout.ahbDiv,
          s.params.layout.apb2Div].any fun f => f.covers i) = false →
        t.cfgr.getLsbD i = false

/-! ### Peripheral gates -/

/-- 43_peripheral_gate.md R182 to R187: a gate micro-operation other than the fifth reads its enable
register into `T`, writes it back with the category's mask ORed in, and goes to the next `upc`; nothing
else changes. `gateInstr c` is GATE_GPIO, GATE_SERIAL, GATE_ADC, GATE_TIMER, GATE_USB. -/
def Obligations.GateEnablesItsCategory : Prop :=
  ∀ (s : State) (c : Category), s.busy = true → s.upc = gateUpc s.params.gateOrder c → s.upc ≠ 9 →
    let x := gateTarget s.params c
    let v := s.reg x ||| gateMask s.params.gateMap c
    exec (gateInstr c) s = .next { s.setReg x v with
      t := s.reg x, upc := s.upc + 1, trace := s.trace ++ [.rd x (s.reg x), .wr x v] }

/-- 43_peripheral_gate.md R188: the gate micro-operation at `upc = 9`, whichever category it is, completes
the bring-up after its write. -/
def Obligations.FifthGateCompletesTheBringUp : Prop :=
  ∀ (s : State) (c : Category), s.busy = true → s.upc = 9 → gateUpc s.params.gateOrder c = 9 →
    let x := gateTarget s.params c
    let v := s.reg x ||| gateMask s.params.gateMap c
    exec (gateInstr c) s = .next { s.setReg x v with
      t := s.reg x, upc := upcIdle, busy := false, initDone := true, phase := phPeripheralsEnabled,
      trace := s.trace ++ [.rd x (s.reg x), .wr x v] }

/-- 43_peripheral_gate.md R189: a gate micro-operation sets exactly the enable bits of its category's
peripherals; every other bit of every register keeps its value. -/
def Obligations.GateChangesOnlyItsOwnBits : Prop :=
  ∀ (s t : State) (c : Category), s.params.wellFormed = true → exec (gateInstr c) s = .next t →
    (∀ (g : Fin 3) (i : Fin 32),
      (t.reg (penr g)).getLsbD i.val =
        ((s.reg (penr g)).getLsbD i.val ||
          (peripheralsOf c).any fun q => decide (gateLoc s.params.gateMap q = ⟨g, i⟩))) ∧
    t.cr = s.cr ∧ t.cfgr = s.cfgr ∧ t.mtcr = s.mtcr ∧ t.prstr0 = s.prstr0 ∧ t.prstr1 = s.prstr1 ∧
    t.params = s.params ∧ t.refused = s.refused ∧ t.resp = s.resp ∧ t.polls = s.polls ∧
    t.port = s.port ∧ t.draws = s.draws

/-- 43_peripheral_gate.md R190, R191: USB_RST_REL clears the USB bit of its reset register by a
read-modify-write and ends the command; every other bit of every register keeps its value. -/
def Obligations.UsbResetReleaseClearsOneBit : Prop :=
  ∀ s : State, s.busy = true → s.upc = 10 →
    let x := usbRstTarget s.params
    ∃ t : State, exec .usbRstRel s = .next t ∧
      t = { s.setReg x (t.reg x) with
        t := s.reg x, upc := upcIdle, busy := false,
        trace := s.trace ++ [.rd x (s.reg x), .wr x (t.reg x)] } ∧
      ∀ i : Fin 32, (t.reg x).getLsbD i.val =
        (if i = s.params.usbRst.bit then false else (s.reg x).getLsbD i.val)

/-- 43_peripheral_gate.md R191 corner case (a), 95_test_vectors.md S6: released twice in a row, the USB
reset bit stays cleared and no register changes the second time. -/
def Obligations.UsbResetReleaseIsIdempotent : Prop :=
  ∀ s t : State, exec .usbRstRel s = .next t →
    ∃ u : State, exec .usbRstRel { t with busy := true, upc := 10 } = .next u ∧
      (∀ x : Reg, u.reg x = t.reg x) ∧
      (u.reg (usbRstTarget s.params)).getLsbD s.params.usbRst.bit.val = false

/-! ### Idle, reserved codes, enabling conditions -/

/-- 30_encoding.md R111: the idle code has no operation. That an idle block with nothing at the port and no
lock due takes a waiting step, which changes the model's draw counter only, is the model's choice, log
entry 14: SEQ has no step in `U_IDLE` in the spec (44_commands.md R200). -/
def Obligations.IdleChangesNothing : Prop :=
  (∀ s : State, exec .uIdle s = .next s) ∧
  ∀ s : State, s.params.wellFormed = true → s.stopped = none → s.envActs = false → s.busy = false →
    s.port = [] → step s = .next { s with draws := s.draws + 1 }

/-- 30_encoding.md R114: a busy machine whose `upc` is 11 to 14 is stuck: its code runs no
micro-operation, and no step but one of ENV is taken. The name of the stop is the model's, log entry 16; of
such a `upc` with `busy = 0` (log entry 25) nothing is said here. -/
def Obligations.ReservedMicroProgramCodesAreStuck : Prop :=
  (∀ s : State, ∀ i ∈ [Instr.reserved11, .reserved12, .reserved13, .reserved14],
    exec i s = .fault .reservedUpc) ∧
  ∀ s : State, s.params.wellFormed = true → s.stopped = none → s.envActs = false → s.busy = true →
    11 ≤ s.upc.toNat → s.upc.toNat ≤ 14 → step s = .fault .reservedUpc

/-- The enabling conditions of 40_clock_multiplier.md R141 to R143, 41_memory_timing.md R161,
42_clock_switch.md R172, 43_peripheral_gate.md R182, R191: a micro-operation runs only while `busy = 1` and
`upc` is its code; the model's name for that stop is `notSelected` (log entry 13). -/
def Obligations.MicroOperationsNeedTheirCode : Prop :=
  ∀ (s : State) (i : Instr), i.isCommand = false → i.wellFormed = true → i ≠ .uIdle →
    ¬(s.busy = true ∧ encode s.params.gateOrder i = .uop s.upc) → exec i s = .fault .notSelected

/-! ### The register bus -/

/-- 20_memory.md R77, 10_state.md R26, R29: what a write leaves. In CR every bit but `MUL_LOCK` takes the
written value, and `MUL_LOCK` is kept if the value enables the multiplier and cleared otherwise; any other
register takes the value; no other register changes; the event is appended. -/
def Obligations.BusWriteStoresTheWord : Prop :=
  ∀ (s : State) (v : Word), s.params.wellFormed = true →
    (∀ i : Nat, i < 32 → s.params.layout.mulLock.covers i = false →
      (s.busWrite32 .cr v).cr.getLsbD i = v.getLsbD i) ∧
    s.params.layout.mulLock.get (s.busWrite32 .cr v).cr =
      (if s.params.layout.mulEn.get v = 1 then s.params.layout.mulLock.get s.cr else 0) ∧
    (∀ x : Reg, x ≠ .cr → (s.busWrite32 x v).reg x = v) ∧
    ∀ x : Reg, s.busWrite32 x v =
      { s.setReg x ((s.busWrite32 x v).reg x) with trace := s.trace ++ [.wr x v] }

/-- 20_memory.md R73, R76, R78, 00_scope.md R14, R15: on raw addresses, the address of a register reads and
writes that register, and any other address, among them every misaligned one, is refused: `refused` is set,
with the reason NotARegister (its record is log entry 24), and nothing is read or written. -/
def Obligations.RawAddressesReachTheirRegisterOrAreRefused : Prop :=
  ∀ (s : State) (v : Word), s.params.wellFormed = true →
    (∀ x : Reg,
      s.memRead32 (regAddr s.params.addr x) =
        .ok (s.reg x, { s with trace := s.trace ++ [.rd x (s.reg x)] }) ∧
      s.memWrite32 (regAddr s.params.addr x) v = .ok (s.busWrite32 x v)) ∧
    ∀ a : Word, (∀ x : Reg, regAddr s.params.addr x ≠ a) ∨ a.toNat % 4 ≠ 0 →
      s.memRead32 a = .error { s with refused := true, reason := some .notARegister } ∧
      s.memWrite32 a v = .error { s with refused := true, reason := some .notARegister }

/-- 20_memory.md R75: the byte at `ADDR(X) + k` holds bits `8k+7 : 8k` of the register.
Little-endian is the spec's own choice (log entry 6). -/
def Obligations.BytesAreLittleEndian : Prop :=
  ∀ (s : State) (x : Reg) (k : Nat), s.params.wellFormed = true → k < 4 →
    ∃ b : BitVec 8, s.busByte (regAddr s.params.addr x + BitVec.ofNat 32 k) = some b ∧
      ∀ j : Nat, j < 8 → b.getLsbD j = (s.reg x).getLsbD (8 * k + j)

/-- 20_memory.md R71, R77: whatever operation runs, only the register it writes on the bus changes, and
with it only the four bytes of that register's word. -/
def Obligations.OperationsWriteOnlyTheirRegister : Prop :=
  ∀ (s t : State) (i : Instr), exec i s = .next t →
    t.params = s.params ∧
    (∀ x : Reg, writtenReg s.params i ≠ some x → t.reg x = s.reg x) ∧
    ∀ a : Word,
      (∀ x : Reg, writtenReg s.params i = some x → regAt s.params.addr (wordAddr a) ≠ some x) →
      t.busByte a = s.busByte a

/-! ### The step -/

/-- 44_commands.md R211: where nothing stops the machine and ENV does not act, a step is the operation of
the fetched code. The model's choices, not R211's: that the three agents' steps are one function with ENV
first (log entry 10), that the draw counter moves on (log entry 5), that an idle block takes the command off
the list at the port (log entry 4), that one with an empty port runs U_IDLE (log entry 14), and that `busy`
alone decides what is fetched (log entry 25). -/
def Obligations.StepRunsTheFetchedOperation : Prop :=
  ∀ (s : State) (i : Instr), s.params.wellFormed = true → s.stopped = none → s.envActs = false →
    decode s.params.gateOrder s.fetch = i →
    step s = exec i { s with
      draws := s.draws + 1, port := if s.busy then s.port else s.port.tail }

/-- 30_encoding.md R110, R111, 44_commands.md R200: a placed code is the one fetched next.
Placing is the model's own (log entry 8). -/
def Obligations.PlacedCodeIsFetched : Prop :=
  ∀ (s : State) (nbits w : Nat) (c : Code), tableCode nbits w = .ok c →
    (s.withFetchWord nbits w).fetch = c

/-- 10_state.md R27, R28: how ENV is resolved. It acts only where `EnvLock` is enabled; with
`LOCK_ORACLE = N` not before `polls = N` and as soon as it is, with `never` not at all, and left free as the
free value says (log entry 5). That with `LOCK_ORACLE = N` it acts exactly at `polls = N`, hence never at
more polls, is the model's choice, log entry 17: R28 does not say it. -/
def Obligations.LockOracleResolvesEnv : Prop :=
  ∀ s : State, s.capReached = false →
    (∀ n : Nat, s.params.lockOracle = .after n →
      (s.envActs = true ↔ s.lockEnabled = true ∧ s.polls = n)) ∧
    (s.params.lockOracle = .never → s.envActs = false) ∧
    (s.params.lockOracle = .free →
      (s.envActs = true ↔ s.lockEnabled = true ∧ Config.envTakes s.draws = true))

/-- 10_state.md R27: the step of ENV sets `MUL_LOCK`, appends `Lock`, and changes no other bit of any
register and nothing of the sequencer; it is enabled only with the multiplier on, unlocked, and its
source, the divided external oscillator, running. -/
def Obligations.EnvStepSetsTheLock : Prop :=
  ∀ s : State, s.params.wellFormed = true → s.stopped = none → s.envActs = true →
    s.params.layout.mulEn.get s.cr = 1 ∧ s.params.layout.mulLock.get s.cr = 0 ∧
    s.params.layout.xoscEn.get s.cr = 1 ∧
    s.params.layout.mulSrc.get s.cfgr = s.params.enc.mulSrcExtDivided ∧
    ∃ t : State, step s = .next t ∧
      t = { s with cr := t.cr, trace := s.trace ++ [.lock], draws := s.draws + 1 } ∧
      s.params.layout.mulLock.get t.cr = 1 ∧
      ∀ i : Nat, i < 32 → s.params.layout.mulLock.covers i = false → t.cr.getLsbD i = s.cr.getLsbD i

/-- 20_memory.md R85: `EnvLock` and a SEQ write commute on the registers, where the write of CR, if it is
one, keeps the multiplier enabled. -/
def Obligations.EnvLockCommutesWithWrites : Prop :=
  ∀ (s : State) (x : Reg) (v : Word), s.params.wellFormed = true →
    (x = .cr → s.params.layout.mulEn.get v = 1) →
    ∀ y : Reg, ((s.busWrite32 x v).envLock).reg y = ((s.envLock).busWrite32 x v).reg y

/-- 70_reset_and_hazards.md R270, R271, R272: a state that satisfies a hazard predicate of the state is
given no meaning. That HZ_FETCH names the fault where both hold is the model's choice, log entry 11. -/
def Obligations.HazardStatesHaveNoStep : Prop :=
  ∀ s : State, s.params.wellFormed = true →
    s.params.layout.sysSrc.get s.cfgr = s.params.enc.sysSrcMul →
    ((s.params.layout.ws.get s.mtcr).toNat < s.params.wsTarget.val → step s = .fault .hzFetch) ∧
    (s.params.wsTarget.val ≤ (s.params.layout.ws.get s.mtcr).toNat →
      ¬(s.params.layout.mulEn.get s.cr = 1 ∧ s.params.layout.mulLock.get s.cr = 1) →
      step s = .fault .hzUnlocked)

/-- 92_eei_decisions.md D11, 30_encoding.md R113, 00_scope.md R8, R15: under parameters outside the spec
what is asked is refused: a command at the port is taken and recorded as refused, a micro-operation is not
carried out, both with `refused` set and the reason recorded; a block of which nothing is asked waits. What
exactly is turned away, and that all parameters outside R7 and R8 are treated so, is the model's choice, log
entries 15 and 24. Under well-formed parameters a step that nothing stops is taken, and the only reason it
can record is U13's; of the idle block with an empty port, and of `busy = 1` with `upc = 15`, where R211
enables no step, that step is the model's wait, log entry 14. No step ends in an outcome that leaves no state
to hold the mark. -/
def Obligations.OnlyIllFormedParametersAreRefused : Prop :=
  ∀ s : State,
    (s.params.wellFormed = false →
      let r : Refusal :=
        if s.params.gateMap.whole = false then .splitGateCategory
        else if s.params.multiplierSupported = false then .unsupportedMultiplierSetting
        else .illFormedParameters
      (∀ (c : BitVec 2) (rest : List (BitVec 2)), s.busy = false → s.port = c :: rest →
        step s = .next { s with
          refused := true, reason := some r, trace := s.trace ++ [.cmd (decodeCmd c) false],
          port := rest, draws := s.draws + 1 }) ∧
      (s.busy = true →
        step s = .next { s with refused := true, reason := some r, draws := s.draws + 1 }) ∧
      (s.busy = false → s.port = [] → step s = .next { s with draws := s.draws + 1 })) ∧
    (s.params.wellFormed = true → s.stopped = none → s.capReached = false →
      (s.busy = true → s.upc.toNat ≤ 10 ∨ s.upc = upcIdle) →
      ∃ t : State, step s = .next t ∧
        (t.reason = s.reason ∨ t.reason = some .multiplierChangeWhileEnabled)) ∧
    ∀ r : Refusal, step s ≠ .refused r

/-! ### Whole-machine rules -/

/-- 10_state.md R29: once the multiplier is enabled and locked, every step keeps it so.
The spec's own decision D14 (log entry 18). -/
def Obligations.LockIsSticky : Prop :=
  ∀ s t : State, s.params.layout.mulEn.get s.cr = 1 → s.params.layout.mulLock.get s.cr = 1 →
    step s = .next t →
    s.params.layout.mulEn.get t.cr = 1 ∧ s.params.layout.mulLock.get t.cr = 1

/-- 10_state.md R43, R46, R49: no step changes a parameter, clears `refused`, takes back a poll, or drops
or rewrites an event of the trace. -/
def Obligations.RecordsAreNeverTakenBack : Prop :=
  ∀ s t : State, step s = .next t →
    t.params = s.params ∧ (s.refused = true → t.refused = true) ∧ s.polls ≤ t.polls ∧
    ∃ es : List Event, t.trace = s.trace ++ es

/-- 10_state.md R44: no step reads a `T` it did not itself write: whatever `T` holds before, the step ends
the same way (in a next state or a fault, nothing else), and its next state differs at most in `T`. -/
def Obligations.LatchBeforeAStepIsNeverRead : Prop :=
  ∀ (s : State) (v : Word),
    (∀ t : State, step s = .next t → ∃ w : Word, step { s with t := v } = .next { t with t := w }) ∧
    (∀ f : Fault, step s = .fault f → step { s with t := v } = .fault f) ∧
    ∀ r : Refusal, step s ≠ .refused r

/-! ### Reset -/

/-- 70_reset_and_hazards.md R260, R261: at power-on the three bits of CR and the source of CFGR are as the
spec fixes them, and every other bit of CR and CFGR and every other register holds its parameter. -/
def Obligations.PowerOnForcesTheFourFields : Prop :=
  ∀ (p : Params) (t r : Word), p.wellFormed = true →
    let s := State.powerOn p t r
    p.layout.ioscEn.get s.cr = 1 ∧ p.layout.mulEn.get s.cr = 0 ∧ p.layout.mulLock.get s.cr = 0 ∧
    p.layout.sysSrc.get s.cfgr = p.enc.sysSrcInt ∧
    (∀ i : Nat, i < 32 → p.layout.ioscEn.covers i = false → p.layout.mulEn.covers i = false →
      p.layout.mulLock.covers i = false → s.cr.getLsbD i = p.resetWords.crRest.getLsbD i) ∧
    (∀ i : Nat, i < 32 → p.layout.sysSrc.covers i = false →
      s.cfgr.getLsbD i = p.resetWords.cfgrRest.getLsbD i) ∧
    s.mtcr = p.resetWords.mtcr ∧ s.penr0 = p.resetWords.penr0 ∧ s.penr1 = p.resetWords.penr1 ∧
    s.penr2 = p.resetWords.penr2 ∧ s.prstr0 = p.resetWords.prstr0 ∧ s.prstr1 = p.resetWords.prstr1

/-- 70_reset_and_hazards.md R263: the sequencer state at reset, whatever `T` and `resp` hold. -/
def Obligations.PowerOnIsIdle : Prop :=
  ∀ (p : Params) (t r : Word),
    let s := State.powerOn p t r
    s.upc = upcIdle ∧ s.phase = phReset ∧ s.busy = false ∧ s.initDone = false ∧ s.refused = false ∧
    s.polls = 0 ∧ s.trace = [] ∧ s.t = t ∧ s.resp = r

/-- The launch premises of 70_reset_and_hazards.md R284: for every well-formed parameters, contents of `T`
and `resp`, HOST program and draw counter, both invariants hold at reset. -/
def Obligations.InvariantsHoldAtReset : Prop :=
  ∀ (p : Params) (t r : Word) (prog : List (BitVec 2)) (d : Nat), p.wellFormed = true →
    { State.powerOn p t r with port := prog, draws := d }.Inv ∧
    { State.powerOn p t r with port := prog, draws := d }.TraceInv

/-! ### Invariants of every step -/

/-- 10_state.md R29, R40, R41, R42, 42_clock_switch.md R174: every step keeps the state invariant. -/
def Obligations.EveryStepKeepsTheStateInvariant : Prop :=
  ∀ s t : State, s.Inv → step s = .next t → t.Inv

/-- 20_memory.md R81, 41_memory_timing.md R162, 42_clock_switch.md R175, 10_state.md R46: every step keeps
the trace invariant. -/
def Obligations.EveryStepKeepsTheTraceInvariant : Prop :=
  ∀ s t : State, s.Inv → s.TraceInv → step s = .next t → t.TraceInv

/-- 70_reset_and_hazards.md R274: the invariants exclude all four hazards, HZ_CR_RMW in its detectable form
(log entry 11). -/
def Obligations.InvariantsExcludeTheHazards : Prop :=
  ∀ s : State, s.Inv → s.TraceInv →
    s.hzFetch = false ∧ s.hzUnlocked = false ∧ hzEarlyGate s.params s.trace = false ∧
    hzCrRmw s.trace = false

/-- 70_reset_and_hazards.md R274: no hazard is reachable: for every well-formed parameters, reset
contents, HOST program and ENV behaviour, every state of every run from reset is free of all four.
HZ_CR_RMW is excluded in both forms of R275: no read of CR is immediately followed by a write of CR, and
every write of CR is of `CR_WORD`, a function of the parameters, which no step changes, so it was computed
from no value read. -/
def Obligations.NoRunReachesAHazard : Prop :=
  ∀ (p : Params) (t r : Word) (prog : List (BitVec 2)) (d k : Nat) (s : State), p.wellFormed = true →
    State.run k { State.powerOn p t r with port := prog, draws := d } = .next s →
    s.hzFetch = false ∧ s.hzUnlocked = false ∧ hzEarlyGate s.params s.trace = false ∧
    hzCrRmw s.trace = false ∧ s.params = p ∧ ∀ v : Word, .wr .cr v ∈ s.trace → v = crWord p

/-- 44_commands.md R211, R212, 60_exceptions.md R230: with no poll cap the machine never stops: every
state that meets the invariants has a next state. Of an idle state with an empty port, where no rule enables
a step (R200: SEQ has none in `U_IDLE`), that is the waiting step, the model's choice, log entry 14. -/
def Obligations.MachineNeverStops : Prop :=
  ∀ s : State, s.Inv → s.TraceInv → s.params.pollCap = none → ∃ t : State, step s = .next t

/-- 10_state.md R41: no transition is reversible: a step leaves the phase or moves it one on. -/
def Obligations.PhaseMovesOnlyForward : Prop :=
  ∀ s t : State, s.Inv → step s = .next t →
    t.phase.toNat = s.phase.toNat ∨ t.phase.toNat = s.phase.toNat + 1

/-! ### The clock tree and the order of the bring-up -/

/-- 40_clock_multiplier.md R144: after the successful poll the multiplier is stable at the target and not
yet selected. -/
def Obligations.LockedMultiplierIsNotYetSelected : Prop :=
  ∀ s : State, s.Inv → s.upc = 3 →
    s.params.layout.mulEn.get s.cr = 1 ∧ s.params.layout.mulLock.get s.cr = 1 ∧
    s.mulOut = some (s.params.targetUnits : ℚ) ∧
    s.params.layout.sysSrc.get s.cfgr = s.params.enc.sysSrcInt ∧
    s.sysclk = some (s.params.fIntUnits : ℚ)

/-- 42_clock_switch.md R174: what holds when CFG_SWITCH is enabled. -/
def Obligations.SwitchFindsLockAndWaitStates : Prop :=
  ∀ s : State, s.Inv → s.upc = 4 →
    s.params.layout.mulEn.get s.cr = 1 ∧ s.params.layout.mulLock.get s.cr = 1 ∧
    (s.params.layout.ws.get s.mtcr).toNat = s.params.wsTarget.val ∧
    s.params.layout.pfEn.get s.mtcr = 1 ∧ s.cfgr = cfgInitWord s.params

/-- 42_clock_switch.md R173: from the switch on, the clocks are 72, 72, 36, 72 and 12 units, and the two
frequency constants are those of the buses. -/
def Obligations.ClocksAfterTheSwitch : Prop :=
  ∀ s : State, s.Inv → 4 ≤ s.phase.toNat →
    s.sysclk = some 72 ∧ s.ahb = some 72 ∧ s.apb1 = some 36 ∧ s.apb2 = some 72 ∧ s.adcclk = some 12 ∧
    bus1Freq s.params = 36 * s.params.freqUnit ∧ bus2Freq s.params = 72 * s.params.freqUnit

/-- 41_memory_timing.md R162, 95_test_vectors.md S1: in a trace that reached the switch there is exactly
one write of MTCR, of the constant, and exactly one write of CFGR that selects the multiplier; the first
comes after the first read of CR that shows the lock and before the second. -/
def Obligations.WaitStatesAreRaisedBetweenLockAndSwitch : Prop :=
  ∀ s : State, s.Inv → s.TraceInv → 4 ≤ s.phase.toNat →
    ∃ (a b c d : List Event) (v : Word),
      s.trace = a ++ .rd .cr v :: b ++ .wr .mtcr (mtWord s.params) :: c ++
        .wr .cfgr (cfgSwitchWord s.params) :: d ∧
      lockBit s.params v = 1 ∧ (∀ w, .rd .cr w ∈ a → lockBit s.params w ≠ 1) ∧
      (∀ w, .wr .mtcr w ∉ a ++ b ++ c ++ d) ∧
      ∀ w, .wr .cfgr w ∈ a ++ b ++ c ++ d → s.params.layout.sysSrc.get w ≠ s.params.enc.sysSrcMul

/-- 44_commands.md R201, 40_clock_multiplier.md R146, 43_peripheral_gate.md R188, R192, R193,
95_test_vectors.md P1: an INIT issued in the phase `Reset`, with the lock asserted after N polls, ends
after N + 12 steps with N + 1 polls made and the registers of P1's parameter-free end state. -/
def Obligations.InitBringsTheClocksUp : Prop :=
  ∀ (s : State) (n : Nat) (rest : List (BitVec 2)), s.Inv → s.TraceInv →
    s.busy = false → s.phase = phReset → s.port = 0b00#2 :: rest →
    s.params.lockOracle = .after n → s.params.pollCap = none →
    ∃ t : State, State.run (n + 12) s = .next t ∧
      t.cr = crLocked s.params ∧ t.cfgr = cfgSwitchWord s.params ∧ t.mtcr = mtWord s.params ∧
      (∀ g : Fin 3, t.reg (penr g) = s.reg (penr g) ||| enabledBits s.params g) ∧
      t.prstr0 = s.prstr0 ∧ t.prstr1 = s.prstr1 ∧
      t.upc = upcIdle ∧ t.phase = phPeripheralsEnabled ∧ t.busy = false ∧ t.initDone = true ∧
      t.refused = s.refused ∧ t.polls = n + 1 ∧ t.port = rest

/-- 43_peripheral_gate.md R192: from the switch on, five steps gate all five categories; for every other
gate order five steps do too, and the two states they leave differ only in the order itself, in `T` and in
the trace. -/
def Obligations.GateOrderDoesNotMatter : Prop :=
  ∀ (s : State) (o : GateOrder), s.Inv → s.TraceInv → s.upc = 5 → o.isPermutation = true →
    ∃ t u : State, State.run 5 s = .next t ∧
      State.run 5 { s with params := { s.params with gateOrder := o } } = .next u ∧
      u = { t with params := { t.params with gateOrder := o }, t := u.t, trace := u.trace } ∧
      ∀ g : Fin 3, t.reg (penr g) = s.reg (penr g) ||| enabledBits s.params g

/-- 60_exceptions.md R232: if no step of the run is ENV's (LOCK_ORACLE `never`, or N before N polls, or a
free ENV that does not lock), an INIT polls for ever: after any number of polls the machine stands at the poll, busy, in the phase `OscillatorsStarting`, on the internal oscillator, with CR at
`CR_WORD` unlocked and every other register as it was when INIT was issued. -/
def Obligations.LockFailureIsAnEndlessPoll : Prop :=
  ∀ (s : State) (k : Nat) (rest : List (BitVec 2)), s.Inv → s.TraceInv → s.busy = false →
    s.phase = phReset → s.port = 0b00#2 :: rest → s.params.pollCap = none →
    (∀ (j : Nat) (u : State), j < k + 3 → State.run j s = .next u → u.turn ≠ .env) →
    ∃ t : State, State.run (k + 3) s = .next t ∧ t.upc = 2 ∧ t.busy = true ∧
      t.phase = phOscillatorsStarting ∧ t.cfgr = cfgInitWord s.params ∧ t.cr = crWord s.params ∧
      s.params.layout.mulLock.get t.cr = 0 ∧ (∀ x : Reg, x ≠ .cr → x ≠ .cfgr → t.reg x = s.reg x) ∧
      t.polls = k

/-- 40_clock_multiplier.md R148, 10_state.md R27: under `LOCK_EVENTUALLY` a busy machine becomes idle: no
command runs for ever. -/
def Obligations.CommandsEndIfTheLockComes : Prop :=
  ∀ σ : Nat → State, IsRun σ → (σ 0).Inv → LockEventually σ → ∃ n : Nat, (σ n).busy = false

/-- 70_reset_and_hazards.md R285: once the peripherals are enabled, the only state changes are those of
REL_USB (its start, and its release: `T`, and the one USB reset bit, cleared), of a frequency command
(`resp`), of a refused INIT (`refused`), and of the trace. R285 says nothing of a wait and of the list at the
port: the waiting step (log entry 14) and the model's own `port` and `draws` (log entries 4 and 5) are the
model's choices. Each case is the whole next state: every field not named keeps its value. -/
def Obligations.OnlyTheUsbResetBitChangesAfterBringUp : Prop :=
  ∀ s t : State, s.Inv → s.phase = phPeripheralsEnabled → step s = .next t →
    t.phase = phPeripheralsEnabled ∧ t.initDone = true ∧
    ((s.busy = false ∧ s.port = [] ∧ t = { s with draws := s.draws + 1 }) ∨
      (s.busy = false ∧ ∃ rest, s.port = 0b00#2 :: rest ∧ t = { s with
        refused := true, trace := s.trace ++ [.cmd .init false], port := rest, draws := s.draws + 1 }) ∨
      (s.busy = false ∧ ∃ rest, s.port = 0b01#2 :: rest ∧ t = { s with
        resp := freqWord (bus1Freq s.params),
        trace := s.trace ++ [.cmd .getBus1 true, .resp (freqWord (bus1Freq s.params))],
        port := rest, draws := s.draws + 1 }) ∨
      (s.busy = false ∧ ∃ rest, s.port = 0b10#2 :: rest ∧ t = { s with
        resp := freqWord (bus2Freq s.params),
        trace := s.trace ++ [.cmd .getBus2 true, .resp (freqWord (bus2Freq s.params))],
        port := rest, draws := s.draws + 1 }) ∨
      (s.busy = false ∧ ∃ rest, s.port = 0b11#2 :: rest ∧ t = { s with
        busy := true, upc := 10, trace := s.trace ++ [.cmd .relUsb true],
        port := rest, draws := s.draws + 1 }) ∨
      (s.busy = true ∧ s.upc = 10 ∧
        (let x := usbRstTarget s.params
        t = { s.setReg x (t.reg x) with
          t := s.reg x, upc := upcIdle, busy := false,
          trace := s.trace ++ [.rd x (s.reg x), .wr x (t.reg x)], draws := s.draws + 1 } ∧
        ∀ i : Fin 32, (t.reg x).getLsbD i.val =
          (if i = s.params.usbRst.bit then false else (s.reg x).getLsbD i.val))))

/-- 70_reset_and_hazards.md R283: as long as HOST issues no INIT, the phase stays `Reset` and every
register keeps its value, apart from the USB reset bit. That HOST issues no INIT is said of the list at the
port (log entry 4); an idle block with an empty port takes the model's waiting step (log entry 14). -/
def Obligations.WithoutInitNothingButTheUsbResetBitChanges : Prop :=
  ∀ s t : State, s.Inv → s.phase = phReset → s.upc = upcIdle ∨ s.upc = 10 → 0b00#2 ∉ s.port →
    step s = .next t →
    t.phase = phReset ∧ (t.upc = upcIdle ∨ t.upc = 10) ∧ 0b00#2 ∉ t.port ∧
    (∀ x : Reg, x ≠ usbRstTarget s.params → t.reg x = s.reg x) ∧
    ∀ i : Fin 32, i ≠ s.params.usbRst.bit →
      (t.reg (usbRstTarget s.params)).getLsbD i.val = (s.reg (usbRstTarget s.params)).getLsbD i.val
end

