-- ==== Sys2Proof/Laws/State.lean ====
section
/-! SUPPORT. One lemma per field per update of the state, so that no proof unfolds a record update, and the
read-after-write laws of the control registers. -/

namespace Sys2Proof.Machine

/-! ### `record` -/

@[simp] theorem State.record_params (s : State) (e : Event) : (s.record e).params = s.params := rfl
@[simp] theorem State.record_cr (s : State) (e : Event) : (s.record e).cr = s.cr := rfl
@[simp] theorem State.record_cfgr (s : State) (e : Event) : (s.record e).cfgr = s.cfgr := rfl
@[simp] theorem State.record_penr0 (s : State) (e : Event) : (s.record e).penr0 = s.penr0 := rfl
@[simp] theorem State.record_penr1 (s : State) (e : Event) : (s.record e).penr1 = s.penr1 := rfl
@[simp] theorem State.record_penr2 (s : State) (e : Event) : (s.record e).penr2 = s.penr2 := rfl
@[simp] theorem State.record_prstr0 (s : State) (e : Event) : (s.record e).prstr0 = s.prstr0 := rfl
@[simp] theorem State.record_prstr1 (s : State) (e : Event) : (s.record e).prstr1 = s.prstr1 := rfl
@[simp] theorem State.record_mtcr (s : State) (e : Event) : (s.record e).mtcr = s.mtcr := rfl
@[simp] theorem State.record_upc (s : State) (e : Event) : (s.record e).upc = s.upc := rfl
@[simp] theorem State.record_phase (s : State) (e : Event) : (s.record e).phase = s.phase := rfl
@[simp] theorem State.record_busy (s : State) (e : Event) : (s.record e).busy = s.busy := rfl
@[simp] theorem State.record_initDone (s : State) (e : Event) : (s.record e).initDone = s.initDone := rfl
@[simp] theorem State.record_refused (s : State) (e : Event) : (s.record e).refused = s.refused := rfl
@[simp] theorem State.record_reason (s : State) (e : Event) : (s.record e).reason = s.reason := rfl
@[simp] theorem State.record_t (s : State) (e : Event) : (s.record e).t = s.t := rfl
@[simp] theorem State.record_resp (s : State) (e : Event) : (s.record e).resp = s.resp := rfl
@[simp] theorem State.record_polls (s : State) (e : Event) : (s.record e).polls = s.polls := rfl
@[simp] theorem State.record_trace (s : State) (e : Event) : (s.record e).trace = s.trace ++ [e] := rfl
@[simp] theorem State.record_port (s : State) (e : Event) : (s.record e).port = s.port := rfl
@[simp] theorem State.record_draws (s : State) (e : Event) : (s.record e).draws = s.draws := rfl

/-! ### `goto` -/

@[simp] theorem State.goto_params (s : State) (u : BitVec 4) : (s.goto u).params = s.params := rfl
@[simp] theorem State.goto_cr (s : State) (u : BitVec 4) : (s.goto u).cr = s.cr := rfl
@[simp] theorem State.goto_cfgr (s : State) (u : BitVec 4) : (s.goto u).cfgr = s.cfgr := rfl
@[simp] theorem State.goto_penr0 (s : State) (u : BitVec 4) : (s.goto u).penr0 = s.penr0 := rfl
@[simp] theorem State.goto_penr1 (s : State) (u : BitVec 4) : (s.goto u).penr1 = s.penr1 := rfl
@[simp] theorem State.goto_penr2 (s : State) (u : BitVec 4) : (s.goto u).penr2 = s.penr2 := rfl
@[simp] theorem State.goto_prstr0 (s : State) (u : BitVec 4) : (s.goto u).prstr0 = s.prstr0 := rfl
@[simp] theorem State.goto_prstr1 (s : State) (u : BitVec 4) : (s.goto u).prstr1 = s.prstr1 := rfl
@[simp] theorem State.goto_mtcr (s : State) (u : BitVec 4) : (s.goto u).mtcr = s.mtcr := rfl
@[simp] theorem State.goto_upc (s : State) (u : BitVec 4) : (s.goto u).upc = u := rfl
@[simp] theorem State.goto_phase (s : State) (u : BitVec 4) : (s.goto u).phase = s.phase := rfl
@[simp] theorem State.goto_busy (s : State) (u : BitVec 4) : (s.goto u).busy = s.busy := rfl
@[simp] theorem State.goto_initDone (s : State) (u : BitVec 4) : (s.goto u).initDone = s.initDone := rfl
@[simp] theorem State.goto_refused (s : State) (u : BitVec 4) : (s.goto u).refused = s.refused := rfl
@[simp] theorem State.goto_reason (s : State) (u : BitVec 4) : (s.goto u).reason = s.reason := rfl
@[simp] theorem State.goto_t (s : State) (u : BitVec 4) : (s.goto u).t = s.t := rfl
@[simp] theorem State.goto_resp (s : State) (u : BitVec 4) : (s.goto u).resp = s.resp := rfl
@[simp] theorem State.goto_polls (s : State) (u : BitVec 4) : (s.goto u).polls = s.polls := rfl
@[simp] theorem State.goto_trace (s : State) (u : BitVec 4) : (s.goto u).trace = s.trace := rfl
@[simp] theorem State.goto_port (s : State) (u : BitVec 4) : (s.goto u).port = s.port := rfl
@[simp] theorem State.goto_draws (s : State) (u : BitVec 4) : (s.goto u).draws = s.draws := rfl

/-! ### `enter` -/

@[simp] theorem State.enter_params (s : State) (ph : BitVec 3) : (s.enter ph).params = s.params := rfl
@[simp] theorem State.enter_cr (s : State) (ph : BitVec 3) : (s.enter ph).cr = s.cr := rfl
@[simp] theorem State.enter_cfgr (s : State) (ph : BitVec 3) : (s.enter ph).cfgr = s.cfgr := rfl
@[simp] theorem State.enter_penr0 (s : State) (ph : BitVec 3) : (s.enter ph).penr0 = s.penr0 := rfl
@[simp] theorem State.enter_penr1 (s : State) (ph : BitVec 3) : (s.enter ph).penr1 = s.penr1 := rfl
@[simp] theorem State.enter_penr2 (s : State) (ph : BitVec 3) : (s.enter ph).penr2 = s.penr2 := rfl
@[simp] theorem State.enter_prstr0 (s : State) (ph : BitVec 3) : (s.enter ph).prstr0 = s.prstr0 := rfl
@[simp] theorem State.enter_prstr1 (s : State) (ph : BitVec 3) : (s.enter ph).prstr1 = s.prstr1 := rfl
@[simp] theorem State.enter_mtcr (s : State) (ph : BitVec 3) : (s.enter ph).mtcr = s.mtcr := rfl
@[simp] theorem State.enter_upc (s : State) (ph : BitVec 3) : (s.enter ph).upc = s.upc := rfl
@[simp] theorem State.enter_phase (s : State) (ph : BitVec 3) : (s.enter ph).phase = ph := rfl
@[simp] theorem State.enter_busy (s : State) (ph : BitVec 3) : (s.enter ph).busy = s.busy := rfl
@[simp] theorem State.enter_initDone (s : State) (ph : BitVec 3) : (s.enter ph).initDone = s.initDone := rfl
@[simp] theorem State.enter_refused (s : State) (ph : BitVec 3) : (s.enter ph).refused = s.refused := rfl
@[simp] theorem State.enter_reason (s : State) (ph : BitVec 3) : (s.enter ph).reason = s.reason := rfl
@[simp] theorem State.enter_t (s : State) (ph : BitVec 3) : (s.enter ph).t = s.t := rfl
@[simp] theorem State.enter_resp (s : State) (ph : BitVec 3) : (s.enter ph).resp = s.resp := rfl
@[simp] theorem State.enter_polls (s : State) (ph : BitVec 3) : (s.enter ph).polls = s.polls := rfl
@[simp] theorem State.enter_trace (s : State) (ph : BitVec 3) : (s.enter ph).trace = s.trace := rfl
@[simp] theorem State.enter_port (s : State) (ph : BitVec 3) : (s.enter ph).port = s.port := rfl
@[simp] theorem State.enter_draws (s : State) (ph : BitVec 3) : (s.enter ph).draws = s.draws := rfl

/-! ### `start` -/

@[simp] theorem State.start_params (s : State) (u : BitVec 4) : (s.start u).params = s.params := rfl
@[simp] theorem State.start_cr (s : State) (u : BitVec 4) : (s.start u).cr = s.cr := rfl
@[simp] theorem State.start_cfgr (s : State) (u : BitVec 4) : (s.start u).cfgr = s.cfgr := rfl
@[simp] theorem State.start_penr0 (s : State) (u : BitVec 4) : (s.start u).penr0 = s.penr0 := rfl
@[simp] theorem State.start_penr1 (s : State) (u : BitVec 4) : (s.start u).penr1 = s.penr1 := rfl
@[simp] theorem State.start_penr2 (s : State) (u : BitVec 4) : (s.start u).penr2 = s.penr2 := rfl
@[simp] theorem State.start_prstr0 (s : State) (u : BitVec 4) : (s.start u).prstr0 = s.prstr0 := rfl
@[simp] theorem State.start_prstr1 (s : State) (u : BitVec 4) : (s.start u).prstr1 = s.prstr1 := rfl
@[simp] theorem State.start_mtcr (s : State) (u : BitVec 4) : (s.start u).mtcr = s.mtcr := rfl
@[simp] theorem State.start_upc (s : State) (u : BitVec 4) : (s.start u).upc = u := rfl
@[simp] theorem State.start_phase (s : State) (u : BitVec 4) : (s.start u).phase = s.phase := rfl
@[simp] theorem State.start_busy (s : State) (u : BitVec 4) : (s.start u).busy = true := rfl
@[simp] theorem State.start_initDone (s : State) (u : BitVec 4) : (s.start u).initDone = s.initDone := rfl
@[simp] theorem State.start_refused (s : State) (u : BitVec 4) : (s.start u).refused = s.refused := rfl
@[simp] theorem State.start_reason (s : State) (u : BitVec 4) : (s.start u).reason = s.reason := rfl
@[simp] theorem State.start_t (s : State) (u : BitVec 4) : (s.start u).t = s.t := rfl
@[simp] theorem State.start_resp (s : State) (u : BitVec 4) : (s.start u).resp = s.resp := rfl
@[simp] theorem State.start_polls (s : State) (u : BitVec 4) : (s.start u).polls = s.polls := rfl
@[simp] theorem State.start_trace (s : State) (u : BitVec 4) : (s.start u).trace = s.trace := rfl
@[simp] theorem State.start_port (s : State) (u : BitVec 4) : (s.start u).port = s.port := rfl
@[simp] theorem State.start_draws (s : State) (u : BitVec 4) : (s.start u).draws = s.draws := rfl

/-! ### `finish` -/

@[simp] theorem State.finish_params (s : State) : s.finish.params = s.params := rfl
@[simp] theorem State.finish_cr (s : State) : s.finish.cr = s.cr := rfl
@[simp] theorem State.finish_cfgr (s : State) : s.finish.cfgr = s.cfgr := rfl
@[simp] theorem State.finish_penr0 (s : State) : s.finish.penr0 = s.penr0 := rfl
@[simp] theorem State.finish_penr1 (s : State) : s.finish.penr1 = s.penr1 := rfl
@[simp] theorem State.finish_penr2 (s : State) : s.finish.penr2 = s.penr2 := rfl
@[simp] theorem State.finish_prstr0 (s : State) : s.finish.prstr0 = s.prstr0 := rfl
@[simp] theorem State.finish_prstr1 (s : State) : s.finish.prstr1 = s.prstr1 := rfl
@[simp] theorem State.finish_mtcr (s : State) : s.finish.mtcr = s.mtcr := rfl
@[simp] theorem State.finish_upc (s : State) : s.finish.upc = upcIdle := rfl
@[simp] theorem State.finish_phase (s : State) : s.finish.phase = s.phase := rfl
@[simp] theorem State.finish_busy (s : State) : s.finish.busy = false := rfl
@[simp] theorem State.finish_initDone (s : State) : s.finish.initDone = s.initDone := rfl
@[simp] theorem State.finish_refused (s : State) : s.finish.refused = s.refused := rfl
@[simp] theorem State.finish_reason (s : State) : s.finish.reason = s.reason := rfl
@[simp] theorem State.finish_t (s : State) : s.finish.t = s.t := rfl
@[simp] theorem State.finish_resp (s : State) : s.finish.resp = s.resp := rfl
@[simp] theorem State.finish_polls (s : State) : s.finish.polls = s.polls := rfl
@[simp] theorem State.finish_trace (s : State) : s.finish.trace = s.trace := rfl
@[simp] theorem State.finish_port (s : State) : s.finish.port = s.port := rfl
@[simp] theorem State.finish_draws (s : State) : s.finish.draws = s.draws := rfl

/-! ### `complete` -/

@[simp] theorem State.complete_params (s : State) : s.complete.params = s.params := rfl
@[simp] theorem State.complete_cr (s : State) : s.complete.cr = s.cr := rfl
@[simp] theorem State.complete_cfgr (s : State) : s.complete.cfgr = s.cfgr := rfl
@[simp] theorem State.complete_penr0 (s : State) : s.complete.penr0 = s.penr0 := rfl
@[simp] theorem State.complete_penr1 (s : State) : s.complete.penr1 = s.penr1 := rfl
@[simp] theorem State.complete_penr2 (s : State) : s.complete.penr2 = s.penr2 := rfl
@[simp] theorem State.complete_prstr0 (s : State) : s.complete.prstr0 = s.prstr0 := rfl
@[simp] theorem State.complete_prstr1 (s : State) : s.complete.prstr1 = s.prstr1 := rfl
@[simp] theorem State.complete_mtcr (s : State) : s.complete.mtcr = s.mtcr := rfl
@[simp] theorem State.complete_upc (s : State) : s.complete.upc = upcIdle := rfl
@[simp] theorem State.complete_phase (s : State) : s.complete.phase = phPeripheralsEnabled := rfl
@[simp] theorem State.complete_busy (s : State) : s.complete.busy = false := rfl
@[simp] theorem State.complete_initDone (s : State) : s.complete.initDone = true := rfl
@[simp] theorem State.complete_refused (s : State) : s.complete.refused = s.refused := rfl
@[simp] theorem State.complete_reason (s : State) : s.complete.reason = s.reason := rfl
@[simp] theorem State.complete_t (s : State) : s.complete.t = s.t := rfl
@[simp] theorem State.complete_resp (s : State) : s.complete.resp = s.resp := rfl
@[simp] theorem State.complete_polls (s : State) : s.complete.polls = s.polls := rfl
@[simp] theorem State.complete_trace (s : State) : s.complete.trace = s.trace := rfl
@[simp] theorem State.complete_port (s : State) : s.complete.port = s.port := rfl
@[simp] theorem State.complete_draws (s : State) : s.complete.draws = s.draws := rfl

/-! ### `markRefused` -/

@[simp] theorem State.markRefused_params (s : State) : s.markRefused.params = s.params := rfl
@[simp] theorem State.markRefused_cr (s : State) : s.markRefused.cr = s.cr := rfl
@[simp] theorem State.markRefused_cfgr (s : State) : s.markRefused.cfgr = s.cfgr := rfl
@[simp] theorem State.markRefused_penr0 (s : State) : s.markRefused.penr0 = s.penr0 := rfl
@[simp] theorem State.markRefused_penr1 (s : State) : s.markRefused.penr1 = s.penr1 := rfl
@[simp] theorem State.markRefused_penr2 (s : State) : s.markRefused.penr2 = s.penr2 := rfl
@[simp] theorem State.markRefused_prstr0 (s : State) : s.markRefused.prstr0 = s.prstr0 := rfl
@[simp] theorem State.markRefused_prstr1 (s : State) : s.markRefused.prstr1 = s.prstr1 := rfl
@[simp] theorem State.markRefused_mtcr (s : State) : s.markRefused.mtcr = s.mtcr := rfl
@[simp] theorem State.markRefused_upc (s : State) : s.markRefused.upc = s.upc := rfl
@[simp] theorem State.markRefused_phase (s : State) : s.markRefused.phase = s.phase := rfl
@[simp] theorem State.markRefused_busy (s : State) : s.markRefused.busy = s.busy := rfl
@[simp] theorem State.markRefused_initDone (s : State) : s.markRefused.initDone = s.initDone := rfl
@[simp] theorem State.markRefused_refused (s : State) : s.markRefused.refused = true := rfl
@[simp] theorem State.markRefused_reason (s : State) : s.markRefused.reason = s.reason := rfl
@[simp] theorem State.markRefused_t (s : State) : s.markRefused.t = s.t := rfl
@[simp] theorem State.markRefused_resp (s : State) : s.markRefused.resp = s.resp := rfl
@[simp] theorem State.markRefused_polls (s : State) : s.markRefused.polls = s.polls := rfl
@[simp] theorem State.markRefused_trace (s : State) : s.markRefused.trace = s.trace := rfl
@[simp] theorem State.markRefused_port (s : State) : s.markRefused.port = s.port := rfl
@[simp] theorem State.markRefused_draws (s : State) : s.markRefused.draws = s.draws := rfl

/-! ### `refuse` -/

@[simp] theorem State.refuse_params (s : State) (r : Refusal) : (s.refuse r).params = s.params := rfl
@[simp] theorem State.refuse_cr (s : State) (r : Refusal) : (s.refuse r).cr = s.cr := rfl
@[simp] theorem State.refuse_cfgr (s : State) (r : Refusal) : (s.refuse r).cfgr = s.cfgr := rfl
@[simp] theorem State.refuse_penr0 (s : State) (r : Refusal) : (s.refuse r).penr0 = s.penr0 := rfl
@[simp] theorem State.refuse_penr1 (s : State) (r : Refusal) : (s.refuse r).penr1 = s.penr1 := rfl
@[simp] theorem State.refuse_penr2 (s : State) (r : Refusal) : (s.refuse r).penr2 = s.penr2 := rfl
@[simp] theorem State.refuse_prstr0 (s : State) (r : Refusal) : (s.refuse r).prstr0 = s.prstr0 := rfl
@[simp] theorem State.refuse_prstr1 (s : State) (r : Refusal) : (s.refuse r).prstr1 = s.prstr1 := rfl
@[simp] theorem State.refuse_mtcr (s : State) (r : Refusal) : (s.refuse r).mtcr = s.mtcr := rfl
@[simp] theorem State.refuse_upc (s : State) (r : Refusal) : (s.refuse r).upc = s.upc := rfl
@[simp] theorem State.refuse_phase (s : State) (r : Refusal) : (s.refuse r).phase = s.phase := rfl
@[simp] theorem State.refuse_busy (s : State) (r : Refusal) : (s.refuse r).busy = s.busy := rfl
@[simp] theorem State.refuse_initDone (s : State) (r : Refusal) : (s.refuse r).initDone = s.initDone := rfl
@[simp] theorem State.refuse_refused (s : State) (r : Refusal) : (s.refuse r).refused = true := rfl
@[simp] theorem State.refuse_reason (s : State) (r : Refusal) : (s.refuse r).reason = some r := rfl
@[simp] theorem State.refuse_t (s : State) (r : Refusal) : (s.refuse r).t = s.t := rfl
@[simp] theorem State.refuse_resp (s : State) (r : Refusal) : (s.refuse r).resp = s.resp := rfl
@[simp] theorem State.refuse_polls (s : State) (r : Refusal) : (s.refuse r).polls = s.polls := rfl
@[simp] theorem State.refuse_trace (s : State) (r : Refusal) : (s.refuse r).trace = s.trace := rfl
@[simp] theorem State.refuse_port (s : State) (r : Refusal) : (s.refuse r).port = s.port := rfl
@[simp] theorem State.refuse_draws (s : State) (r : Refusal) : (s.refuse r).draws = s.draws := rfl

/-! ### `countPoll` -/

@[simp] theorem State.countPoll_params (s : State) : s.countPoll.params = s.params := rfl
@[simp] theorem State.countPoll_cr (s : State) : s.countPoll.cr = s.cr := rfl
@[simp] theorem State.countPoll_cfgr (s : State) : s.countPoll.cfgr = s.cfgr := rfl
@[simp] theorem State.countPoll_penr0 (s : State) : s.countPoll.penr0 = s.penr0 := rfl
@[simp] theorem State.countPoll_penr1 (s : State) : s.countPoll.penr1 = s.penr1 := rfl
@[simp] theorem State.countPoll_penr2 (s : State) : s.countPoll.penr2 = s.penr2 := rfl
@[simp] theorem State.countPoll_prstr0 (s : State) : s.countPoll.prstr0 = s.prstr0 := rfl
@[simp] theorem State.countPoll_prstr1 (s : State) : s.countPoll.prstr1 = s.prstr1 := rfl
@[simp] theorem State.countPoll_mtcr (s : State) : s.countPoll.mtcr = s.mtcr := rfl
@[simp] theorem State.countPoll_upc (s : State) : s.countPoll.upc = s.upc := rfl
@[simp] theorem State.countPoll_phase (s : State) : s.countPoll.phase = s.phase := rfl
@[simp] theorem State.countPoll_busy (s : State) : s.countPoll.busy = s.busy := rfl
@[simp] theorem State.countPoll_initDone (s : State) : s.countPoll.initDone = s.initDone := rfl
@[simp] theorem State.countPoll_refused (s : State) : s.countPoll.refused = s.refused := rfl
@[simp] theorem State.countPoll_reason (s : State) : s.countPoll.reason = s.reason := rfl
@[simp] theorem State.countPoll_t (s : State) : s.countPoll.t = s.t := rfl
@[simp] theorem State.countPoll_resp (s : State) : s.countPoll.resp = s.resp := rfl
@[simp] theorem State.countPoll_polls (s : State) : s.countPoll.polls = s.polls + 1 := rfl
@[simp] theorem State.countPoll_trace (s : State) : s.countPoll.trace = s.trace := rfl
@[simp] theorem State.countPoll_port (s : State) : s.countPoll.port = s.port := rfl
@[simp] theorem State.countPoll_draws (s : State) : s.countPoll.draws = s.draws := rfl

/-! ### `tick` -/

@[simp] theorem State.tick_params (s : State) : s.tick.params = s.params := rfl
@[simp] theorem State.tick_cr (s : State) : s.tick.cr = s.cr := rfl
@[simp] theorem State.tick_cfgr (s : State) : s.tick.cfgr = s.cfgr := rfl
@[simp] theorem State.tick_penr0 (s : State) : s.tick.penr0 = s.penr0 := rfl
@[simp] theorem State.tick_penr1 (s : State) : s.tick.penr1 = s.penr1 := rfl
@[simp] theorem State.tick_penr2 (s : State) : s.tick.penr2 = s.penr2 := rfl
@[simp] theorem State.tick_prstr0 (s : State) : s.tick.prstr0 = s.prstr0 := rfl
@[simp] theorem State.tick_prstr1 (s : State) : s.tick.prstr1 = s.prstr1 := rfl
@[simp] theorem State.tick_mtcr (s : State) : s.tick.mtcr = s.mtcr := rfl
@[simp] theorem State.tick_upc (s : State) : s.tick.upc = s.upc := rfl
@[simp] theorem State.tick_phase (s : State) : s.tick.phase = s.phase := rfl
@[simp] theorem State.tick_busy (s : State) : s.tick.busy = s.busy := rfl
@[simp] theorem State.tick_initDone (s : State) : s.tick.initDone = s.initDone := rfl
@[simp] theorem State.tick_refused (s : State) : s.tick.refused = s.refused := rfl
@[simp] theorem State.tick_reason (s : State) : s.tick.reason = s.reason := rfl
@[simp] theorem State.tick_t (s : State) : s.tick.t = s.t := rfl
@[simp] theorem State.tick_resp (s : State) : s.tick.resp = s.resp := rfl
@[simp] theorem State.tick_polls (s : State) : s.tick.polls = s.polls := rfl
@[simp] theorem State.tick_trace (s : State) : s.tick.trace = s.trace := rfl
@[simp] theorem State.tick_port (s : State) : s.tick.port = s.port := rfl
@[simp] theorem State.tick_draws (s : State) : s.tick.draws = s.draws + 1 := rfl

/-! ### `respond` -/

@[simp] theorem State.respond_params (s : State) (c : Command) (v : Word) : (s.respond c v).params = s.params := rfl
@[simp] theorem State.respond_cr (s : State) (c : Command) (v : Word) : (s.respond c v).cr = s.cr := rfl
@[simp] theorem State.respond_cfgr (s : State) (c : Command) (v : Word) : (s.respond c v).cfgr = s.cfgr := rfl
@[simp] theorem State.respond_penr0 (s : State) (c : Command) (v : Word) : (s.respond c v).penr0 = s.penr0 := rfl
@[simp] theorem State.respond_penr1 (s : State) (c : Command) (v : Word) : (s.respond c v).penr1 = s.penr1 := rfl
@[simp] theorem State.respond_penr2 (s : State) (c : Command) (v : Word) : (s.respond c v).penr2 = s.penr2 := rfl
@[simp] theorem State.respond_prstr0 (s : State) (c : Command) (v : Word) : (s.respond c v).prstr0 = s.prstr0 := rfl
@[simp] theorem State.respond_prstr1 (s : State) (c : Command) (v : Word) : (s.respond c v).prstr1 = s.prstr1 := rfl
@[simp] theorem State.respond_mtcr (s : State) (c : Command) (v : Word) : (s.respond c v).mtcr = s.mtcr := rfl
@[simp] theorem State.respond_upc (s : State) (c : Command) (v : Word) : (s.respond c v).upc = s.upc := rfl
@[simp] theorem State.respond_phase (s : State) (c : Command) (v : Word) : (s.respond c v).phase = s.phase := rfl
@[simp] theorem State.respond_busy (s : State) (c : Command) (v : Word) : (s.respond c v).busy = s.busy := rfl
@[simp] theorem State.respond_initDone (s : State) (c : Command) (v : Word) : (s.respond c v).initDone = s.initDone := rfl
@[simp] theorem State.respond_refused (s : State) (c : Command) (v : Word) : (s.respond c v).refused = s.refused := rfl
@[simp] theorem State.respond_reason (s : State) (c : Command) (v : Word) : (s.respond c v).reason = s.reason := rfl
@[simp] theorem State.respond_t (s : State) (c : Command) (v : Word) : (s.respond c v).t = s.t := rfl
@[simp] theorem State.respond_resp (s : State) (c : Command) (v : Word) : (s.respond c v).resp = v := rfl
@[simp] theorem State.respond_polls (s : State) (c : Command) (v : Word) : (s.respond c v).polls = s.polls := rfl
@[simp] theorem State.respond_trace (s : State) (c : Command) (v : Word) : (s.respond c v).trace = s.trace ++ [.cmd c true] ++ [.resp v] := rfl
@[simp] theorem State.respond_port (s : State) (c : Command) (v : Word) : (s.respond c v).port = s.port := rfl
@[simp] theorem State.respond_draws (s : State) (c : Command) (v : Word) : (s.respond c v).draws = s.draws := rfl

/-! ### `envLock` -/

@[simp] theorem State.envLock_params (s : State) : s.envLock.params = s.params := rfl
@[simp] theorem State.envLock_cr (s : State) : s.envLock.cr = s.params.layout.mulLock.set s.cr 1 := rfl
@[simp] theorem State.envLock_cfgr (s : State) : s.envLock.cfgr = s.cfgr := rfl
@[simp] theorem State.envLock_penr0 (s : State) : s.envLock.penr0 = s.penr0 := rfl
@[simp] theorem State.envLock_penr1 (s : State) : s.envLock.penr1 = s.penr1 := rfl
@[simp] theorem State.envLock_penr2 (s : State) : s.envLock.penr2 = s.penr2 := rfl
@[simp] theorem State.envLock_prstr0 (s : State) : s.envLock.prstr0 = s.prstr0 := rfl
@[simp] theorem State.envLock_prstr1 (s : State) : s.envLock.prstr1 = s.prstr1 := rfl
@[simp] theorem State.envLock_mtcr (s : State) : s.envLock.mtcr = s.mtcr := rfl
@[simp] theorem State.envLock_upc (s : State) : s.envLock.upc = s.upc := rfl
@[simp] theorem State.envLock_phase (s : State) : s.envLock.phase = s.phase := rfl
@[simp] theorem State.envLock_busy (s : State) : s.envLock.busy = s.busy := rfl
@[simp] theorem State.envLock_initDone (s : State) : s.envLock.initDone = s.initDone := rfl
@[simp] theorem State.envLock_refused (s : State) : s.envLock.refused = s.refused := rfl
@[simp] theorem State.envLock_reason (s : State) : s.envLock.reason = s.reason := rfl
@[simp] theorem State.envLock_t (s : State) : s.envLock.t = s.t := rfl
@[simp] theorem State.envLock_resp (s : State) : s.envLock.resp = s.resp := rfl
@[simp] theorem State.envLock_polls (s : State) : s.envLock.polls = s.polls := rfl
@[simp] theorem State.envLock_trace (s : State) : s.envLock.trace = s.trace ++ [.lock] := rfl
@[simp] theorem State.envLock_port (s : State) : s.envLock.port = s.port := rfl
@[simp] theorem State.envLock_draws (s : State) : s.envLock.draws = s.draws := rfl

/-! ### `loadT` -/

@[simp] theorem State.loadT_params (s : State) (x : Reg) : (s.loadT x).params = s.params := rfl
@[simp] theorem State.loadT_cr (s : State) (x : Reg) : (s.loadT x).cr = s.cr := rfl
@[simp] theorem State.loadT_cfgr (s : State) (x : Reg) : (s.loadT x).cfgr = s.cfgr := rfl
@[simp] theorem State.loadT_penr0 (s : State) (x : Reg) : (s.loadT x).penr0 = s.penr0 := rfl
@[simp] theorem State.loadT_penr1 (s : State) (x : Reg) : (s.loadT x).penr1 = s.penr1 := rfl
@[simp] theorem State.loadT_penr2 (s : State) (x : Reg) : (s.loadT x).penr2 = s.penr2 := rfl
@[simp] theorem State.loadT_prstr0 (s : State) (x : Reg) : (s.loadT x).prstr0 = s.prstr0 := rfl
@[simp] theorem State.loadT_prstr1 (s : State) (x : Reg) : (s.loadT x).prstr1 = s.prstr1 := rfl
@[simp] theorem State.loadT_mtcr (s : State) (x : Reg) : (s.loadT x).mtcr = s.mtcr := rfl
@[simp] theorem State.loadT_upc (s : State) (x : Reg) : (s.loadT x).upc = s.upc := rfl
@[simp] theorem State.loadT_phase (s : State) (x : Reg) : (s.loadT x).phase = s.phase := rfl
@[simp] theorem State.loadT_busy (s : State) (x : Reg) : (s.loadT x).busy = s.busy := rfl
@[simp] theorem State.loadT_initDone (s : State) (x : Reg) : (s.loadT x).initDone = s.initDone := rfl
@[simp] theorem State.loadT_refused (s : State) (x : Reg) : (s.loadT x).refused = s.refused := rfl
@[simp] theorem State.loadT_reason (s : State) (x : Reg) : (s.loadT x).reason = s.reason := rfl
@[simp] theorem State.loadT_t (s : State) (x : Reg) : (s.loadT x).t = s.reg x := rfl
@[simp] theorem State.loadT_resp (s : State) (x : Reg) : (s.loadT x).resp = s.resp := rfl
@[simp] theorem State.loadT_polls (s : State) (x : Reg) : (s.loadT x).polls = s.polls := rfl
@[simp] theorem State.loadT_trace (s : State) (x : Reg) : (s.loadT x).trace = s.trace ++ [.rd x (s.reg x)] := rfl
@[simp] theorem State.loadT_port (s : State) (x : Reg) : (s.loadT x).port = s.port := rfl
@[simp] theorem State.loadT_draws (s : State) (x : Reg) : (s.loadT x).draws = s.draws := rfl

/-! ### `setReg` and `busWrite32`: every field that is no control register -/

@[simp] theorem State.setReg_params (s : State) (x : Reg) (v : Word) : (s.setReg x v).params = s.params := by
  cases x <;> rfl
@[simp] theorem State.setReg_upc (s : State) (x : Reg) (v : Word) : (s.setReg x v).upc = s.upc := by
  cases x <;> rfl
@[simp] theorem State.setReg_phase (s : State) (x : Reg) (v : Word) : (s.setReg x v).phase = s.phase := by
  cases x <;> rfl
@[simp] theorem State.setReg_busy (s : State) (x : Reg) (v : Word) : (s.setReg x v).busy = s.busy := by
  cases x <;> rfl
@[simp] theorem State.setReg_initDone (s : State) (x : Reg) (v : Word) : (s.setReg x v).initDone = s.initDone := by
  cases x <;> rfl
@[simp] theorem State.setReg_refused (s : State) (x : Reg) (v : Word) : (s.setReg x v).refused = s.refused := by
  cases x <;> rfl
@[simp] theorem State.setReg_reason (s : State) (x : Reg) (v : Word) : (s.setReg x v).reason = s.reason := by
  cases x <;> rfl
@[simp] theorem State.setReg_t (s : State) (x : Reg) (v : Word) : (s.setReg x v).t = s.t := by
  cases x <;> rfl
@[simp] theorem State.setReg_resp (s : State) (x : Reg) (v : Word) : (s.setReg x v).resp = s.resp := by
  cases x <;> rfl
@[simp] theorem State.setReg_polls (s : State) (x : Reg) (v : Word) : (s.setReg x v).polls = s.polls := by
  cases x <;> rfl
@[simp] theorem State.setReg_trace (s : State) (x : Reg) (v : Word) : (s.setReg x v).trace = s.trace := by
  cases x <;> rfl
@[simp] theorem State.setReg_port (s : State) (x : Reg) (v : Word) : (s.setReg x v).port = s.port := by
  cases x <;> rfl
@[simp] theorem State.setReg_draws (s : State) (x : Reg) (v : Word) : (s.setReg x v).draws = s.draws := by
  cases x <;> rfl
@[simp] theorem State.busWrite32_params (s : State) (x : Reg) (v : Word) :
    (s.busWrite32 x v).params = s.params := by
  cases x <;> rfl
@[simp] theorem State.busWrite32_upc (s : State) (x : Reg) (v : Word) :
    (s.busWrite32 x v).upc = s.upc := by
  cases x <;> rfl
@[simp] theorem State.busWrite32_phase (s : State) (x : Reg) (v : Word) :
    (s.busWrite32 x v).phase = s.phase := by
  cases x <;> rfl
@[simp] theorem State.busWrite32_busy (s : State) (x : Reg) (v : Word) :
    (s.busWrite32 x v).busy = s.busy := by
  cases x <;> rfl
@[simp] theorem State.busWrite32_initDone (s : State) (x : Reg) (v : Word) :
    (s.busWrite32 x v).initDone = s.initDone := by
  cases x <;> rfl
@[simp] theorem State.busWrite32_refused (s : State) (x : Reg) (v : Word) :
    (s.busWrite32 x v).refused = s.refused := by
  cases x <;> rfl
@[simp] theorem State.busWrite32_reason (s : State) (x : Reg) (v : Word) :
    (s.busWrite32 x v).reason = s.reason := by
  cases x <;> rfl
@[simp] theorem State.busWrite32_t (s : State) (x : Reg) (v : Word) :
    (s.busWrite32 x v).t = s.t := by
  cases x <;> rfl
@[simp] theorem State.busWrite32_resp (s : State) (x : Reg) (v : Word) :
    (s.busWrite32 x v).resp = s.resp := by
  cases x <;> rfl
@[simp] theorem State.busWrite32_polls (s : State) (x : Reg) (v : Word) :
    (s.busWrite32 x v).polls = s.polls := by
  cases x <;> rfl
@[simp] theorem State.busWrite32_trace (s : State) (x : Reg) (v : Word) :
    (s.busWrite32 x v).trace = s.trace ++ [.wr x v] := by
  cases x <;> rfl
@[simp] theorem State.busWrite32_port (s : State) (x : Reg) (v : Word) :
    (s.busWrite32 x v).port = s.port := by
  cases x <;> rfl
@[simp] theorem State.busWrite32_draws (s : State) (x : Reg) (v : Word) :
    (s.busWrite32 x v).draws = s.draws := by
  cases x <;> rfl

/-! ### A full-word write of a named register, field by field -/

@[simp] theorem State.busWrite32_cr_cr (s : State) (v : Word) : (s.busWrite32 .cr v).cr = s.stored .cr v := rfl
@[simp] theorem State.busWrite32_cr_cfgr (s : State) (v : Word) : (s.busWrite32 .cr v).cfgr = s.cfgr := rfl
@[simp] theorem State.busWrite32_cr_penr0 (s : State) (v : Word) : (s.busWrite32 .cr v).penr0 = s.penr0 := rfl
@[simp] theorem State.busWrite32_cr_penr1 (s : State) (v : Word) : (s.busWrite32 .cr v).penr1 = s.penr1 := rfl
@[simp] theorem State.busWrite32_cr_penr2 (s : State) (v : Word) : (s.busWrite32 .cr v).penr2 = s.penr2 := rfl
@[simp] theorem State.busWrite32_cr_prstr0 (s : State) (v : Word) : (s.busWrite32 .cr v).prstr0 = s.prstr0 := rfl
@[simp] theorem State.busWrite32_cr_prstr1 (s : State) (v : Word) : (s.busWrite32 .cr v).prstr1 = s.prstr1 := rfl
@[simp] theorem State.busWrite32_cr_mtcr (s : State) (v : Word) : (s.busWrite32 .cr v).mtcr = s.mtcr := rfl
@[simp] theorem State.busWrite32_cfgr_cr (s : State) (v : Word) : (s.busWrite32 .cfgr v).cr = s.cr := rfl
@[simp] theorem State.busWrite32_cfgr_cfgr (s : State) (v : Word) : (s.busWrite32 .cfgr v).cfgr = v := rfl
@[simp] theorem State.busWrite32_cfgr_penr0 (s : State) (v : Word) : (s.busWrite32 .cfgr v).penr0 = s.penr0 := rfl
@[simp] theorem State.busWrite32_cfgr_penr1 (s : State) (v : Word) : (s.busWrite32 .cfgr v).penr1 = s.penr1 := rfl
@[simp] theorem State.busWrite32_cfgr_penr2 (s : State) (v : Word) : (s.busWrite32 .cfgr v).penr2 = s.penr2 := rfl
@[simp] theorem State.busWrite32_cfgr_prstr0 (s : State) (v : Word) : (s.busWrite32 .cfgr v).prstr0 = s.prstr0 := rfl
@[simp] theorem State.busWrite32_cfgr_prstr1 (s : State) (v : Word) : (s.busWrite32 .cfgr v).prstr1 = s.prstr1 := rfl
@[simp] theorem State.busWrite32_cfgr_mtcr (s : State) (v : Word) : (s.busWrite32 .cfgr v).mtcr = s.mtcr := rfl
@[simp] theorem State.busWrite32_mtcr_cr (s : State) (v : Word) : (s.busWrite32 .mtcr v).cr = s.cr := rfl
@[simp] theorem State.busWrite32_mtcr_cfgr (s : State) (v : Word) : (s.busWrite32 .mtcr v).cfgr = s.cfgr := rfl
@[simp] theorem State.busWrite32_mtcr_penr0 (s : State) (v : Word) : (s.busWrite32 .mtcr v).penr0 = s.penr0 := rfl
@[simp] theorem State.busWrite32_mtcr_penr1 (s : State) (v : Word) : (s.busWrite32 .mtcr v).penr1 = s.penr1 := rfl
@[simp] theorem State.busWrite32_mtcr_penr2 (s : State) (v : Word) : (s.busWrite32 .mtcr v).penr2 = s.penr2 := rfl
@[simp] theorem State.busWrite32_mtcr_prstr0 (s : State) (v : Word) : (s.busWrite32 .mtcr v).prstr0 = s.prstr0 := rfl
@[simp] theorem State.busWrite32_mtcr_prstr1 (s : State) (v : Word) : (s.busWrite32 .mtcr v).prstr1 = s.prstr1 := rfl
@[simp] theorem State.busWrite32_mtcr_mtcr (s : State) (v : Word) : (s.busWrite32 .mtcr v).mtcr = v := rfl

/-! ### `readModifyWrite`: every field that is no control register -/

@[simp] theorem State.readModifyWrite_params (s : State) (x : Reg) (f : Word → Word) :
    (s.readModifyWrite x f).params = s.params := by
  cases x <;> rfl
@[simp] theorem State.readModifyWrite_upc (s : State) (x : Reg) (f : Word → Word) :
    (s.readModifyWrite x f).upc = s.upc := by
  cases x <;> rfl
@[simp] theorem State.readModifyWrite_phase (s : State) (x : Reg) (f : Word → Word) :
    (s.readModifyWrite x f).phase = s.phase := by
  cases x <;> rfl
@[simp] theorem State.readModifyWrite_busy (s : State) (x : Reg) (f : Word → Word) :
    (s.readModifyWrite x f).busy = s.busy := by
  cases x <;> rfl
@[simp] theorem State.readModifyWrite_initDone (s : State) (x : Reg) (f : Word → Word) :
    (s.readModifyWrite x f).initDone = s.initDone := by
  cases x <;> rfl
@[simp] theorem State.readModifyWrite_refused (s : State) (x : Reg) (f : Word → Word) :
    (s.readModifyWrite x f).refused = s.refused := by
  cases x <;> rfl
@[simp] theorem State.readModifyWrite_reason (s : State) (x : Reg) (f : Word → Word) :
    (s.readModifyWrite x f).reason = s.reason := by
  cases x <;> rfl
@[simp] theorem State.readModifyWrite_t (s : State) (x : Reg) (f : Word → Word) :
    (s.readModifyWrite x f).t = s.reg x := by
  cases x <;> rfl
@[simp] theorem State.readModifyWrite_resp (s : State) (x : Reg) (f : Word → Word) :
    (s.readModifyWrite x f).resp = s.resp := by
  cases x <;> rfl
@[simp] theorem State.readModifyWrite_polls (s : State) (x : Reg) (f : Word → Word) :
    (s.readModifyWrite x f).polls = s.polls := by
  cases x <;> rfl
@[simp] theorem State.readModifyWrite_trace (s : State) (x : Reg) (f : Word → Word) :
    (s.readModifyWrite x f).trace = s.trace ++ [.rd x (s.reg x)] ++ [.wr x (f (s.reg x))] := by
  cases x <;> rfl
@[simp] theorem State.readModifyWrite_port (s : State) (x : Reg) (f : Word → Word) :
    (s.readModifyWrite x f).port = s.port := by
  cases x <;> rfl
@[simp] theorem State.readModifyWrite_draws (s : State) (x : Reg) (f : Word → Word) :
    (s.readModifyWrite x f).draws = s.draws := by
  cases x <;> rfl

/-! ### The registers as a family -/

@[simp] theorem State.record_reg (s : State) (e : Event) (y : Reg) : (s.record e).reg y = s.reg y := by
  cases y <;> rfl
@[simp] theorem State.loadT_reg (s : State) (x y : Reg) : (s.loadT x).reg y = s.reg y := by
  cases y <;> rfl
@[simp] theorem State.goto_reg (s : State) (u : BitVec 4) (y : Reg) : (s.goto u).reg y = s.reg y := by
  cases y <;> rfl
@[simp] theorem State.enter_reg (s : State) (ph : BitVec 3) (y : Reg) : (s.enter ph).reg y = s.reg y := by
  cases y <;> rfl
@[simp] theorem State.start_reg (s : State) (u : BitVec 4) (y : Reg) : (s.start u).reg y = s.reg y := by
  cases y <;> rfl
@[simp] theorem State.finish_reg (s : State) (y : Reg) : s.finish.reg y = s.reg y := by cases y <;> rfl
@[simp] theorem State.complete_reg (s : State) (y : Reg) : s.complete.reg y = s.reg y := by cases y <;> rfl
@[simp] theorem State.markRefused_reg (s : State) (y : Reg) : s.markRefused.reg y = s.reg y := by
  cases y <;> rfl
@[simp] theorem State.refuse_reg (s : State) (r : Refusal) (y : Reg) : (s.refuse r).reg y = s.reg y := by
  cases y <;> rfl
@[simp] theorem State.respond_reg (s : State) (c : Command) (v : Word) (y : Reg) :
    (s.respond c v).reg y = s.reg y := by
  cases y <;> rfl
@[simp] theorem State.countPoll_reg (s : State) (y : Reg) : s.countPoll.reg y = s.reg y := by
  cases y <;> rfl
@[simp] theorem State.tick_reg (s : State) (y : Reg) : s.tick.reg y = s.reg y := by cases y <;> rfl

/-- A register reads the value last set. -/
@[simp] theorem State.setReg_reg_self (s : State) (x : Reg) (v : Word) : (s.setReg x v).reg x = v := by
  cases x <;> rfl

/-- Setting a register leaves every other register alone. -/
theorem State.setReg_reg_ne (s : State) {x y : Reg} (v : Word) (h : y ≠ x) :
    (s.setReg x v).reg y = s.reg y := by
  cases x <;> cases y <;> first | rfl | exact absurd rfl h

/-- A register reads what the write left in it (20_memory.md R77). -/
@[simp] theorem State.busWrite32_reg_self (s : State) (x : Reg) (v : Word) :
    (s.busWrite32 x v).reg x = s.stored x v := by
  cases x <;> rfl

/-- A write changes no other register (R77). -/
theorem State.busWrite32_reg_ne (s : State) {x y : Reg} (v : Word) (h : y ≠ x) :
    (s.busWrite32 x v).reg y = s.reg y := by
  cases x <;> cases y <;> first | rfl | exact absurd rfl h

/-- Only CR stores something else than the value written. -/
theorem State.stored_of_ne_cr (s : State) {x : Reg} (v : Word) (h : x ≠ .cr) : s.stored x v = v := by
  cases x <;> first | rfl | exact absurd rfl h

/-- A read-modify-write of a register other than CR leaves the modified value (00_scope.md R19). -/
theorem State.readModifyWrite_reg_self (s : State) {x : Reg} (f : Word → Word) (h : x ≠ .cr) :
    (s.readModifyWrite x f).reg x = f (s.reg x) := by
  cases x <;> first | rfl | exact absurd rfl h

/-- A read-modify-write changes no other register. -/
theorem State.readModifyWrite_reg_ne (s : State) {x y : Reg} (f : Word → Word) (h : y ≠ x) :
    (s.readModifyWrite x f).reg y = s.reg y := by
  cases x <;> cases y <;> first | rfl | exact absurd rfl h

/-- A gate or reset register is not CR. -/
theorem penr_ne_cr (g : Fin 3) : penr g ≠ .cr := by revert g; decide
theorem prstr_ne_cr (r : Fin 2) : prstr r ≠ .cr := by revert r; decide

end Sys2Proof.Machine
end

