-- ==== Sys2Proof/Laws/Fields.lean ====
section
/-! SUPPORT. The algebra of register fields (00_scope.md R12): what each bit of `ones`, `mask`, `put`,
`get` and `set` is, and from that how `get` reads a word that was put together from fields. -/

namespace Sys2Proof.Slot

theorem inWord_iff {f : Slot} : f.inWord = true ↔ f.lo ≤ f.hi ∧ f.hi < 32 := by
  simp [inWord]

theorem apart_iff {f g : Slot} : f.apart g = true ↔ f.hi < g.lo ∨ g.hi < f.lo := by
  simp [apart]

theorem apart_comm {f g : Slot} (h : f.apart g = true) : g.apart f = true := by
  rw [apart_iff] at h ⊢; exact h.symm

theorem ones_getLsbD {f : Slot} (hf : f.inWord = true) {i : Nat} (_ : i < 32) :
    f.ones.getLsbD i = decide (i < f.width) := by
  obtain ⟨h1, h2⟩ := inWord_iff.mp hf
  have hw : f.width ≤ 32 := by unfold width; omega
  have hn : f.ones.toNat = 2 ^ f.width - 1 := by
    simp only [ones, BitVec.toNat_sub, BitVec.toNat_shiftLeft, BitVec.toNat_ofNat, Nat.shiftLeft_eq]
    rcases Nat.lt_or_ge f.width 32 with h | h
    · have h3 : 2 ^ f.width < 2 ^ 32 := Nat.pow_lt_pow_right (by omega) h
      have h4 : 0 < 2 ^ f.width := Nat.two_pow_pos _
      rw [Nat.mod_eq_of_lt (a := 1) (by omega), Nat.one_mul, Nat.mod_eq_of_lt h3]
      omega
    · have h5 : f.width = 32 := by omega
      rw [h5]; decide
  rw [← BitVec.testBit_toNat, hn, Nat.testBit_two_pow_sub_one]

theorem mask_getLsbD {f : Slot} (hf : f.inWord = true) {i : Nat} (hi : i < 32) :
    f.mask.getLsbD i = decide (f.lo ≤ i ∧ i ≤ f.hi) := by
  obtain ⟨h1, h2⟩ := inWord_iff.mp hf
  rw [mask, BitVec.getLsbD_shiftLeft]
  rcases Nat.lt_or_ge i f.lo with h | h
  · simp [h]
  · rw [ones_getLsbD hf (by omega)]
    have : (i - f.lo < f.width) ↔ i ≤ f.hi := by unfold width; omega
    simp [h, hi, this, Nat.not_lt.mpr h]

theorem put_getLsbD {f : Slot} (hf : f.inWord = true) (v : Word) {i : Nat} (hi : i < 32) :
    (f.put v).getLsbD i = (decide (f.lo ≤ i ∧ i ≤ f.hi) && v.getLsbD (i - f.lo)) := by
  rw [put, BitVec.getLsbD_and, mask_getLsbD hf hi, BitVec.getLsbD_shiftLeft]
  rcases Nat.lt_or_ge i f.lo with h | h
  · simp [Nat.not_le.mpr h]
  · simp [h, hi, Nat.not_lt.mpr h, Bool.and_comm]

theorem get_getLsbD {f : Slot} (hf : f.inWord = true) (w : Word) {i : Nat} (hi : i < 32) :
    (f.get w).getLsbD i = (decide (i < f.width) && w.getLsbD (f.lo + i)) := by
  rw [get, BitVec.getLsbD_and, ones_getLsbD hf hi, BitVec.getLsbD_ushiftRight, Bool.and_comm]

theorem holds_getLsbD {f : Slot} {v : Word} (h : f.holds v = true) {i : Nat} (hi : f.width ≤ i) :
    v.getLsbD i = false := by
  have h' : v.toNat < 2 ^ f.width := by simpa [holds] using h
  rw [← BitVec.testBit_toNat]
  exact Nat.testBit_lt_two_pow (Nat.lt_of_lt_of_le h' (Nat.pow_le_pow_right (by omega) hi))

theorem get_zero (f : Slot) : f.get 0#32 = 0#32 := by simp [get]

theorem put_zero (f : Slot) : f.put 0#32 = 0#32 := by simp [put]

theorem get_or (f : Slot) (a b : Word) : f.get (a ||| b) = f.get a ||| f.get b := by
  apply BitVec.eq_of_getLsbD_eq; intro i hi
  simp [get, Bool.and_or_distrib_right]

theorem get_put_self {f : Slot} (hf : f.inWord = true) {v : Word} (hv : f.holds v = true) :
    f.get (f.put v) = v := by
  obtain ⟨h1, h2⟩ := inWord_iff.mp hf
  apply BitVec.eq_of_getLsbD_eq; intro i hi
  rw [get_getLsbD hf _ hi]
  rcases Nat.lt_or_ge i f.width with h | h
  · have h3 : f.lo + i ≤ f.hi := by unfold width at h; omega
    rw [put_getLsbD hf v (by omega)]
    simp [h, h3]
  · rw [holds_getLsbD hv h]; simp [Nat.not_lt.mpr h]

theorem get_put_apart {f g : Slot} (hf : f.inWord = true) (hg : g.inWord = true)
    (ha : f.apart g = true) (v : Word) : f.get (g.put v) = 0 := by
  obtain ⟨h1, h2⟩ := inWord_iff.mp hf
  obtain ⟨h3, h4⟩ := inWord_iff.mp hg
  rw [apart_iff] at ha
  apply BitVec.eq_of_getLsbD_eq; intro i hi
  rw [get_getLsbD hf _ hi]
  rcases Nat.lt_or_ge i f.width with h | h
  · have h5 : f.lo + i ≤ f.hi := by unfold width at h; omega
    have h6 : ¬(g.lo ≤ f.lo + i ∧ f.lo + i ≤ g.hi) := by omega
    rw [put_getLsbD hg v (by omega)]
    simp [h6]
  · simp [Nat.not_lt.mpr h]

theorem get_clear_self {f : Slot} (hf : f.inWord = true) (w : Word) : f.get (w &&& ~~~f.mask) = 0 := by
  obtain ⟨h1, h2⟩ := inWord_iff.mp hf
  apply BitVec.eq_of_getLsbD_eq; intro i hi
  rw [get_getLsbD hf _ hi]
  rcases Nat.lt_or_ge i f.width with h | h
  · have h5 : f.lo + i ≤ f.hi := by unfold width at h; omega
    have h6 : f.lo + i < 32 := by omega
    rw [BitVec.getLsbD_and, BitVec.getLsbD_not, mask_getLsbD hf h6]
    simp [h5]
  · simp [Nat.not_lt.mpr h]

theorem get_clear_apart {f g : Slot} (hf : f.inWord = true) (hg : g.inWord = true)
    (ha : f.apart g = true) (w : Word) : f.get (w &&& ~~~g.mask) = f.get w := by
  obtain ⟨h1, h2⟩ := inWord_iff.mp hf
  rw [apart_iff] at ha
  apply BitVec.eq_of_getLsbD_eq; intro i hi
  rw [get_getLsbD hf _ hi, get_getLsbD hf _ hi]
  rcases Nat.lt_or_ge i f.width with h | h
  · have h5 : f.lo + i ≤ f.hi := by unfold width at h; omega
    have h6 : f.lo + i < 32 := by omega
    have h7 : ¬(g.lo ≤ f.lo + i ∧ f.lo + i ≤ g.hi) := by omega
    rw [BitVec.getLsbD_and, BitVec.getLsbD_not, mask_getLsbD hg h6]
    simp [h6, h7]
  · simp [Nat.not_lt.mpr h]

theorem get_set_self {f : Slot} (hf : f.inWord = true) (w : Word) {v : Word} (hv : f.holds v = true) :
    f.get (f.set w v) = v := by
  rw [set, get_or, get_clear_self hf, get_put_self hf hv]; simp

theorem get_set_apart {f g : Slot} (hf : f.inWord = true) (hg : g.inWord = true)
    (ha : f.apart g = true) (w v : Word) : f.get (g.set w v) = f.get w := by
  rw [set, get_or, get_clear_apart hf hg ha, get_put_apart hf hg ha]; simp

/-- A bit outside the field is untouched by `set`. -/
theorem set_getLsbD_outside {f : Slot} (hf : f.inWord = true) (w v : Word) {i : Nat} (hi : i < 32)
    (ho : ¬(f.lo ≤ i ∧ i ≤ f.hi)) : (f.set w v).getLsbD i = w.getLsbD i := by
  rw [set, BitVec.getLsbD_or, BitVec.getLsbD_and, BitVec.getLsbD_not, mask_getLsbD hf hi,
    put_getLsbD hf v hi]
  simp [ho, hi]

/-- `put` leaves every bit it does not cover 0. -/
theorem put_getLsbD_outside {f : Slot} (hf : f.inWord = true) (v : Word) {i : Nat} (hi : i < 32)
    (h : f.covers i = false) : (f.put v).getLsbD i = false := by
  have h' : decide (f.lo ≤ i ∧ i ≤ f.hi) = false := by simpa [covers] using h
  rw [put_getLsbD hf v hi, h', Bool.false_and]

/-- `set` leaves every bit it does not cover alone. -/
theorem set_getLsbD_of_not_covers {f : Slot} (hf : f.inWord = true) (w v : Word) {i : Nat} (hi : i < 32)
    (h : f.covers i = false) : (f.set w v).getLsbD i = w.getLsbD i :=
  set_getLsbD_outside hf w v hi (by simpa [covers] using h)

/-- A field that is zero stays the word when it is set to zero. -/
theorem set_zero_of_get_zero {f : Slot} (hf : f.inWord = true) {w : Word} (h : f.get w = 0#32) :
    f.set w 0#32 = w := by
  obtain ⟨h1, h2⟩ := inWord_iff.mp hf
  apply BitVec.eq_of_getLsbD_eq; intro i hi
  by_cases ho : f.lo ≤ i ∧ i ≤ f.hi
  · have hb : (f.get w).getLsbD (i - f.lo) = false := by rw [h]; simp
    have hw : i - f.lo < f.width := by unfold width; omega
    rw [get_getLsbD hf _ (by omega), show f.lo + (i - f.lo) = i by omega] at hb
    have hb' : w.getLsbD i = false := by simpa [hw] using hb
    rw [set, put_zero, BitVec.getLsbD_or, BitVec.getLsbD_and, hb']
    simp
  · exact set_getLsbD_outside hf w 0 hi ho

/-- For a one-bit field, `put 1` is the mask. -/
theorem put_one_eq_mask {f : Slot} (hf : f.inWord = true) (hw : f.width = 1) : f.put 1#32 = f.mask := by
  obtain ⟨h1, h2⟩ := inWord_iff.mp hf
  apply BitVec.eq_of_getLsbD_eq; intro i hi
  rw [put_getLsbD hf _ hi, mask_getLsbD hf hi]
  by_cases ho : f.lo ≤ i ∧ i ≤ f.hi
  · have : i - f.lo = 0 := by unfold width at hw; omega
    rw [this]; simp
  · simp [ho]

/-- Setting a field of a word that reads zero there ORs the value in. -/
theorem set_of_get_zero {f : Slot} (hf : f.inWord = true) {w : Word} (h : f.get w = 0#32) (v : Word) :
    f.set w v = w ||| f.put v := by
  have h0 := set_zero_of_get_zero hf h
  rw [set, put_zero] at h0
  rw [set, show (w &&& ~~~f.mask) = w by simpa using h0]

theorem holds_zero (f : Slot) : f.holds 0#32 = true := by
  simp [holds]

theorem holds_one {f : Slot} : f.holds 1#32 = true := by
  have h : 2 ^ 1 ≤ 2 ^ f.width := Nat.pow_le_pow_right (by omega) (by unfold width; omega)
  exact decide_eq_true (Nat.lt_of_lt_of_le (by decide : (1#32 : Word).toNat < 2 ^ 1) h)

/-- A one-bit field reads 0 or 1. -/
theorem get_bit {f : Slot} (hf : f.inWord = true) (hw : f.width = 1) (w : Word) :
    f.get w = 0#32 ∨ f.get w = 1#32 := by
  by_cases hb : w.getLsbD f.lo = true
  · right
    apply BitVec.eq_of_getLsbD_eq; intro i hi
    rw [get_getLsbD hf _ hi, hw]
    rcases Nat.eq_zero_or_pos i with h | h
    · subst h; simp [hb]
    · have h1 : (1#32).getLsbD i = false := by
        rw [BitVec.getLsbD_one]; simp; omega
      rw [h1]; simp; omega
  · left
    apply BitVec.eq_of_getLsbD_eq; intro i hi
    rw [get_getLsbD hf _ hi, hw]
    rcases Nat.eq_zero_or_pos i with h | h
    · subst h; simpa using hb
    · simp [Nat.not_lt.mpr (Nat.succ_le_of_lt h)]

/-- What a one-bit field reads fits it. -/
theorem holds_get_bit {f : Slot} (hf : f.inWord = true) (hw : f.width = 1) (w : Word) :
    f.holds (f.get w) = true := by
  rcases get_bit hf hw w with h | h <;> rw [h]
  · exact holds_zero f
  · exact holds_one

/-- Two `set`s of one field: the second wins. -/
theorem set_set {f : Slot} (hf : f.inWord = true) (w a b : Word) : f.set (f.set w a) b = f.set w b := by
  apply BitVec.eq_of_getLsbD_eq; intro i hi
  by_cases ho : f.lo ≤ i ∧ i ≤ f.hi
  · simp only [set, BitVec.getLsbD_or, BitVec.getLsbD_and, BitVec.getLsbD_not, mask_getLsbD hf hi]
    simp [ho]
  · rw [set_getLsbD_outside hf _ _ hi ho, set_getLsbD_outside hf _ _ hi ho, set_getLsbD_outside hf _ _ hi ho]

end Sys2Proof.Slot
end

