-- ==== Sys2Proof/Laws/Words.lean ====
section
/-! SUPPORT. What well-formed parameters give (00_scope.md R8), and how the constant words and the reset
words read in the fields that decide the control flow and the hazards. -/

namespace Sys2Proof

theorem slotsApart_cons {f : Slot} {fs : List Slot} : slotsApart (f :: fs) = true ↔
    f.inWord = true ∧ (∀ g ∈ fs, f.apart g = true ∧ g.apart f = true) ∧ slotsApart fs = true := by
  simp only [slotsApart, Bool.and_eq_true, List.all_eq_true, and_assoc]
  exact and_congr_right fun _ => and_congr_left fun _ =>
    forall₂_congr fun g _ => ⟨fun h => ⟨h, Slot.apart_comm h⟩, And.left⟩

/-- The fields of CR are inside the word and apart, in both orders, and the status bits are one wide. -/
theorem Params.cr_slots {p : Params} (h : p.wellFormed = true) :
    slotsApart [p.layout.ioscEn, p.layout.xoscEn, p.layout.xoscTrim, p.layout.mulEn, p.layout.mulLock] = true ∧
    p.layout.ioscEn.width = 1 ∧ p.layout.xoscEn.width = 1 ∧ p.layout.mulEn.width = 1 ∧
    p.layout.mulLock.width = 1 ∧ p.layout.xoscTrim.holds p.trimValue = true := by
  simp only [Params.wellFormed, Layout.crOk, Bool.and_eq_true, beq_iff_eq] at h
  simp only [h, and_self]

/-- The fields of CFGR are inside the word and apart, and every code fits its field. -/
theorem Params.cfgr_slots {p : Params} (h : p.wellFormed = true) :
    slotsApart [p.layout.sysSrc, p.layout.ahbDiv, p.layout.apb1Div, p.layout.apb2Div, p.layout.adcDiv,
      p.layout.mulSrc, p.layout.mulFact, p.layout.usbDiv] = true ∧
    p.layout.sysSrc.width = 2 ∧
    p.layout.sysSrc.holds p.enc.sysSrcInt = true ∧ p.layout.sysSrc.holds p.enc.sysSrcMul = true ∧
    p.layout.ahbDiv.holds p.enc.ahbDiv1 = true ∧ p.layout.apb1Div.holds p.enc.apb1Div1 = true ∧
    p.layout.apb1Div.holds p.enc.apb1Div2 = true ∧ p.layout.apb2Div.holds p.enc.apb2Div1 = true ∧
    p.layout.adcDiv.holds p.enc.adcDiv2 = true ∧ p.layout.adcDiv.holds p.enc.adcDiv6 = true ∧
    p.layout.mulSrc.holds p.enc.mulSrcExtDivided = true ∧ p.layout.mulFact.holds p.enc.mulFactX9 = true := by
  simp only [Params.wellFormed, Layout.cfgrOk, Enc.ok, Bool.and_eq_true, beq_iff_eq] at h
  simp only [h, and_self]

/-- The fields of MTCR are inside the word and apart. -/
theorem Params.mtcr_slots {p : Params} (h : p.wellFormed = true) :
    slotsApart [p.layout.ws, p.layout.pfEn, p.layout.hcEn] = true ∧ p.layout.ws.width = 2 ∧
    p.layout.pfEn.width = 1 ∧ p.layout.hcEn.width = 1 := by
  simp only [Params.wellFormed, Layout.mtcrOk, Bool.and_eq_true, beq_iff_eq] at h
  simp only [h, and_self]

/-- The two meanings of `SYS_SRC` have different codes. -/
theorem Params.sysSrc_codes {p : Params} (h : p.wellFormed = true) : p.enc.sysSrcInt ≠ p.enc.sysSrcMul := by
  simp only [Params.wellFormed, Enc.ok, Bool.and_eq_true, bne_iff_ne, ne_eq] at h
  simp only [ne_eq, h, not_false_eq_true]

/-- `GATE_ORDER` holds the five categories once each. -/
theorem Params.gateOrder_nodup {p : Params} (h : p.wellFormed = true) :
    p.gateOrder.isPermutation = true := by
  simp only [Params.wellFormed, Bool.and_eq_true] at h
  simp only [h]

/-- P11, P12: the target is 72 units. -/
theorem Params.targetUnits_eq {p : Params} (h : p.wellFormed = true) : p.targetUnits = 72 := by
  simp only [Params.wellFormed, Params.multiplierSupported, Bool.and_eq_true, beq_iff_eq] at h
  simp only [h]

/-- The eight addresses are distinct multiples of 4. -/
theorem Params.addr_ok {p : Params} (h : p.wellFormed = true) :
    p.addr.all.Nodup ∧ ∀ a ∈ p.addr.all, a.toNat % 4 = 0 := by
  simp only [Params.wellFormed, AddrMap.ok, Bool.and_eq_true, decide_eq_true_eq, List.all_eq_true,
    beq_iff_eq] at h
  exact h.1.1.1.1.1.1.1.2

/-- The enable bits are distinct, and those of one category share a register. -/
theorem Params.gateMap_ok {p : Params} (h : p.wellFormed = true) :
    p.gateMap.all.Nodup ∧ p.gateMap.gpio1.reg = p.gateMap.gpio0.reg ∧
    p.gateMap.gpio2.reg = p.gateMap.gpio0.reg ∧ p.gateMap.adc1.reg = p.gateMap.adc0.reg := by
  simp only [Params.wellFormed, GateMap.whole, Bool.and_eq_true, decide_eq_true_eq, beq_iff_eq] at h
  simp only [h, and_self]

namespace Machine

/-- The place of `MUL_LOCK`. -/
theorem mulLock_slot {p : Params} (h : p.wellFormed = true) :
    p.layout.mulLock.inWord = true ∧ p.layout.mulLock.width = 1 := by
  have hf := p.cr_slots h
  simp only [slotsApart_cons] at hf
  exact ⟨hf.1.2.2.2.2.2.2.2.2.1, hf.2.2.2.2.1⟩

/-- Setting `MUL_LOCK` leaves the other fields of CR alone. -/
theorem get_set_mulLock {p : Params} (h : p.wellFormed = true) (w v : Word) :
    p.layout.ioscEn.get (p.layout.mulLock.set w v) = p.layout.ioscEn.get w ∧
    p.layout.xoscEn.get (p.layout.mulLock.set w v) = p.layout.xoscEn.get w ∧
    p.layout.xoscTrim.get (p.layout.mulLock.set w v) = p.layout.xoscTrim.get w ∧
    p.layout.mulEn.get (p.layout.mulLock.set w v) = p.layout.mulEn.get w := by
  have hf := p.cr_slots h
  simp only [slotsApart_cons, List.mem_cons, List.not_mem_nil, or_false, forall_eq_or_imp, forall_eq] at hf
  simp [Slot.get_set_apart, hf]

theorem crWord_fields {p : Params} (h : p.wellFormed = true) :
    p.layout.ioscEn.get (crWord p) = 1 ∧ p.layout.xoscEn.get (crWord p) = 1 ∧
    p.layout.mulEn.get (crWord p) = 1 ∧ p.layout.mulLock.get (crWord p) = 0 := by
  have hf := p.cr_slots h
  simp only [slotsApart_cons, List.mem_cons, List.not_mem_nil, or_false, forall_eq_or_imp, forall_eq] at hf
  simp [crWord, Slot.get_or, Slot.get_put_self, Slot.get_put_apart, Slot.holds_one, hf]

theorem cfgInitWord_fields {p : Params} (h : p.wellFormed = true) :
    p.layout.sysSrc.get (cfgInitWord p) = p.enc.sysSrcInt ∧
    p.layout.mulSrc.get (cfgInitWord p) = p.enc.mulSrcExtDivided ∧
    p.layout.mulFact.get (cfgInitWord p) = p.enc.mulFactX9 := by
  have hf := p.cfgr_slots h
  simp only [slotsApart_cons, List.mem_cons, List.not_mem_nil, or_false, forall_eq_or_imp, forall_eq] at hf
  simp [cfgInitWord, Slot.get_or, Slot.get_put_self, Slot.get_put_apart, hf]

theorem cfgSwitchWord_fields {p : Params} (h : p.wellFormed = true) :
    p.layout.sysSrc.get (cfgSwitchWord p) = p.enc.sysSrcMul ∧
    p.layout.mulSrc.get (cfgSwitchWord p) = p.enc.mulSrcExtDivided ∧
    p.layout.mulFact.get (cfgSwitchWord p) = p.enc.mulFactX9 := by
  have hf := p.cfgr_slots h
  simp only [slotsApart_cons, List.mem_cons, List.not_mem_nil, or_false, forall_eq_or_imp, forall_eq] at hf
  simp [cfgSwitchWord, cfgInitWord, Slot.get_or, Slot.get_put_self, Slot.get_put_apart,
    Slot.get_clear_self, Slot.get_clear_apart, hf]

theorem mtWord_ws {p : Params} (h : p.wellFormed = true) :
    p.layout.ws.get (mtWord p) = BitVec.ofNat 32 p.wsTarget.val := by
  have hf := p.mtcr_slots h
  simp only [slotsApart_cons, List.mem_cons, List.not_mem_nil, or_false, forall_eq_or_imp, forall_eq] at hf
  have hw : p.layout.ws.holds (BitVec.ofNat 32 p.wsTarget.val) = true := by
    have := p.wsTarget.isLt
    simp only [Slot.holds, hf, BitVec.toNat_ofNat, decide_eq_true_eq]
    omega
  simp [mtWord, Slot.get_or, Slot.get_put_self, Slot.get_put_apart, hw, hf]

theorem resetCr_fields {p : Params} (h : p.wellFormed = true) :
    p.layout.ioscEn.get (resetCr p) = 1 ∧ p.layout.mulEn.get (resetCr p) = 0 ∧
    p.layout.mulLock.get (resetCr p) = 0 := by
  have hf := p.cr_slots h
  simp only [slotsApart_cons, List.mem_cons, List.not_mem_nil, or_false, forall_eq_or_imp, forall_eq] at hf
  simp [resetCr, Slot.get_set_self, Slot.get_set_apart, Slot.holds_one, Slot.holds_zero, hf]

theorem resetCfgr_sysSrc {p : Params} (h : p.wellFormed = true) :
    p.layout.sysSrc.get (resetCfgr p) = p.enc.sysSrcInt := by
  have hf := p.cfgr_slots h
  simp only [slotsApart_cons, List.mem_cons, List.not_mem_nil, or_false, forall_eq_or_imp, forall_eq] at hf
  simp [resetCfgr, Slot.get_set_self, hf]

theorem cfgSwitchWord_dividers {p : Params} (h : p.wellFormed = true) :
    p.layout.ahbDiv.get (cfgSwitchWord p) = p.enc.ahbDiv1 ∧
    p.layout.apb1Div.get (cfgSwitchWord p) = p.enc.apb1Div2 ∧
    p.layout.apb2Div.get (cfgSwitchWord p) = p.enc.apb2Div1 ∧
    p.layout.adcDiv.get (cfgSwitchWord p) = p.enc.adcDiv6 := by
  have hf := p.cfgr_slots h
  simp only [slotsApart_cons, List.mem_cons, List.not_mem_nil, or_false, forall_eq_or_imp, forall_eq] at hf
  simp [cfgSwitchWord, cfgInitWord, Slot.get_or, Slot.get_put_self, Slot.get_put_apart,
    Slot.get_clear_self, Slot.get_clear_apart, hf]

theorem mtWord_pfEn {p : Params} (h : p.wellFormed = true) : p.layout.pfEn.get (mtWord p) = 1 := by
  have hf := p.mtcr_slots h
  simp only [slotsApart_cons, List.mem_cons, List.not_mem_nil, or_false, forall_eq_or_imp, forall_eq] at hf
  simp [mtWord, Slot.get_or, Slot.get_put_self, Slot.get_put_apart, Slot.holds_one, hf]

end Machine

end Sys2Proof
end

