-- ==== Sys2Proof/Laws/Bus.lean ====
section
/-! SUPPORT. The shared operations on the bus: a read-modify-write as one record, the bits of the gate and
reset masks, and raw addresses (00_scope.md R19, 20_memory.md R73 to R79, 30_encoding.md R109). -/

namespace Sys2Proof.Machine

theorem gateTarget_ne_cr (p : Params) (c : Category) : gateTarget p c ≠ .cr := penr_ne_cr _

theorem usbRstTarget_ne_cr (p : Params) : usbRstTarget p ≠ .cr := prstr_ne_cr _

theorem penr_injective : ∀ g h : Fin 3, penr g = penr h → g = h := by decide

theorem prstr_ne_penr : ∀ (r : Fin 2) (g : Fin 3), prstr r ≠ penr g := by decide

/-- Everything a read-modify-write of a register other than CR does. -/
theorem State.readModifyWrite_eq (s : State) {x : Reg} (f : Word → Word) (h : x ≠ .cr) :
    s.readModifyWrite x f = { s.setReg x (f (s.reg x)) with
      t := s.reg x, trace := s.trace ++ [.rd x (s.reg x), .wr x (f (s.reg x))] } := by
  cases x <;> first
    | exact absurd rfl h
    | simp [State.readModifyWrite, State.loadT, State.busRead32, State.busWrite32, State.record,
        State.setReg, State.stored, State.reg]

theorem bitMask_getLsbD (i : Fin 32) {j : Nat} (hj : j < 32) :
    (bitMask i).getLsbD j = decide (j = i.val) := by
  rw [bitMask, BitVec.getLsbD_shiftLeft, BitVec.getLsbD_one]
  have hi := i.isLt
  by_cases h : j = i.val
  · subst h; simp
  · simp [h]; omega

/-- The bits of `GATE_MASK(c)` are those of the category's peripherals. -/
theorem gateMask_getLsbD (m : GateMap) (c : Category) {j : Nat} (hj : j < 32) :
    (gateMask m c).getLsbD j = (peripheralsOf c).any fun q => decide (j = (gateLoc m q).bit.val) := by
  cases c <;>
  · simp only [gateMask, peripheralsOf, gateLoc, List.map_cons, List.map_nil, List.foldl_cons,
      List.foldl_nil, List.any_cons, List.any_nil, BitVec.getLsbD_or, bitMask_getLsbD _ hj,
      BitVec.ofNat_eq_ofNat, BitVec.getLsbD_zero, Bool.false_or, Bool.or_false, Bool.or_assoc]
    rfl

/-- In well-formed parameters every peripheral of a category is in the category's register. -/
theorem gateLoc_reg {p : Params} (h : p.wellFormed = true) {c : Category} {q : Peripheral}
    (hq : q ∈ peripheralsOf c) : (gateLoc p.gateMap q).reg = gateReg p.gateMap c := by
  have hm := p.gateMap_ok h
  cases c <;> simp only [peripheralsOf, List.mem_cons, List.not_mem_nil, or_false] at hq <;>
    rcases hq with rfl | rfl | rfl <;> simp [gateLoc, gateReg, hm]

/-- The address of a register finds that register. -/
theorem regAt_regAddr {p : Params} (h : p.wellFormed = true) (x : Reg) :
    regAt p.addr (regAddr p.addr x) = some x := by
  have hn := (p.addr_ok h).1
  simp only [AddrMap.all, List.nodup_cons, List.mem_cons, List.not_mem_nil, or_false, not_or,
    ← ne_eq] at hn
  cases x <;> simp [regAt, allRegs, regAddr, hn, beq_false_of_ne]

/-- An address of no register finds none. -/
theorem regAt_none {p : Params} {a : Word} (h : ∀ x, regAddr p.addr x ≠ a) : regAt p.addr a = none := by
  simp [regAt, List.find?_eq_none, h]

theorem regAddr_aligned {p : Params} (h : p.wellFormed = true) (x : Reg) :
    (regAddr p.addr x).toNat % 4 = 0 := by
  apply (p.addr_ok h).2
  cases x <;> simp [AddrMap.all, regAddr]

end Sys2Proof.Machine
end

