-- ==== Sys2Proof/Laws/Codes.lean ====
section
/-! SUPPORT. The gate codes under a gate order (30_encoding.md R111, 43_peripheral_gate.md R182). -/

namespace Sys2Proof

/-- The category in the k-th slot of a gate order has the code `5 + k`. -/
theorem gateUpc_slots {o : GateOrder} (ho : o.isPermutation = true) :
    gateUpc o o.first = 5 ∧ gateUpc o o.second = 6 ∧ gateUpc o o.third = 7 ∧
    gateUpc o o.fourth = 8 ∧ gateUpc o o.fifth = 9 := by
  obtain ⟨a, b, c, d, e⟩ := o
  simp only [GateOrder.isPermutation, List.nodup_cons, List.mem_cons, List.not_mem_nil, or_false, not_or,
    decide_eq_true_eq, not_false_eq_true, List.nodup_nil, and_true] at ho
  obtain ⟨⟨h1, h2, h3, h4⟩, ⟨h5, h6, h7⟩, ⟨h8, h9⟩, h10⟩ := ho
  simp [gateUpc, Ne.symm h1, Ne.symm h2, Ne.symm h3, Ne.symm h4, Ne.symm h5, Ne.symm h6, Ne.symm h7,
    Ne.symm h8, Ne.symm h9, Ne.symm h10]

theorem encode_gateInstr (o : GateOrder) (c : Category) : encode o (gateInstr c) = .uop (gateUpc o c) := by
  cases c <;> rfl

/-- Every category has a slot in a gate order. -/
theorem GateOrder.covers {o : GateOrder} (ho : o.isPermutation = true) (c : Category) :
    c = o.first ∨ c = o.second ∨ c = o.third ∨ c = o.fourth ∨ c = o.fifth := by
  obtain ⟨a, b, d, e, f⟩ := o
  simp only [GateOrder.isPermutation, List.nodup_cons, List.mem_cons, List.not_mem_nil, or_false, not_or,
    decide_eq_true_eq, not_false_eq_true, List.nodup_nil, and_true] at ho
  by_contra h
  simp only [not_or] at h
  obtain ⟨h1, h2, h3, h4, h5⟩ := h
  cases c <;> cases a <;> simp at ho h1 <;> cases b <;> simp at ho h2 <;> cases d <;>
    simp at ho h3 <;> cases e <;> simp at ho h4 <;> cases f <;> simp_all

/-- The codes 5 to 9 are those of the five gate micro-operations. -/
theorem decodeUop_gate {o : GateOrder} (ho : o.isPermutation = true) {u : BitVec 4} (h5 : 5 ≤ u.toNat)
    (h9 : u.toNat ≤ 9) : ∃ c, decodeUop o u = gateInstr c ∧ gateUpc o c = u := by
  have hg := gateUpc_slots ho
  have : u = 5 ∨ u = 6 ∨ u = 7 ∨ u = 8 ∨ u = 9 := by revert h5 h9; revert u; decide
  rcases this with e | e | e | e | e <;> subst e
  · exact ⟨o.first, rfl, hg.1⟩
  · exact ⟨o.second, rfl, hg.2.1⟩
  · exact ⟨o.third, rfl, hg.2.2.1⟩
  · exact ⟨o.fourth, rfl, hg.2.2.2.1⟩
  · exact ⟨o.fifth, rfl, hg.2.2.2.2⟩

end Sys2Proof
end

