-- ==== Sys2Proof/Laws/Exec.lean ====
section
/-! SUPPORT. Everything a meaning and a step can do, said once: if it answers a next state, under which
conditions and which one. -/

namespace Sys2Proof.Machine

/-- Next states are compared by the state. -/
theorem next_eq_iff {a t : State} : (Host.Outcome.next a : Result) = .next t ↔ t = a :=
  ⟨fun h => by cases h; rfl, fun h => by rw [h]⟩

/-- A guarded outcome is a next state only where the guard does not hold. -/
theorem guarded_next {c : Bool} {r : Result} {a t : State} (hr : ∀ t, r ≠ .next t) :
    (if c = true then r else .next a) = .next t ↔ c = false ∧ t = a := by
  cases c
  · simpa using eq_comm
  · simp [hr t]

theorem State.selected_next {s t : State} {u : BitVec 4} {r : Result} :
    s.selected u r = .next t ↔ (s.busy = true ∧ s.upc = u) ∧ r = .next t := by
  unfold State.selected
  split <;> simp_all

theorem State.selected_of {s : State} {u : BitVec 4} (r : Result) (hb : s.busy = true) (hu : s.upc = u) :
    s.selected u r = r := by
  simp [State.selected, hb, hu]

theorem State.whenIdle_next {s t : State} {r : Result} :
    s.whenIdle r = .next t ↔ s.busy = false ∧ r = .next t := by
  unfold State.whenIdle
  split <;> simp_all

theorem State.whenIdle_of {s : State} (r : Result) (hb : s.busy = false) : s.whenIdle r = r := by
  simp [State.whenIdle, hb]

theorem execInit_next {s t : State} : execInit s = .next t ↔ s.busy = false ∧
    t = if s.phase = phReset then (s.record (.cmd .init true)).start 0
      else (s.record (.cmd .init false)).markRefused := by
  simp only [execInit, State.whenIdle_next, next_eq_iff]

theorem execGetBus1_next {s t : State} : execGetBus1 s = .next t ↔
    s.busy = false ∧ t = s.respond .getBus1 (freqWord (bus1Freq s.params)) := by
  simp only [execGetBus1, State.whenIdle_next, next_eq_iff]

theorem execGetBus2_next {s t : State} : execGetBus2 s = .next t ↔
    s.busy = false ∧ t = s.respond .getBus2 (freqWord (bus2Freq s.params)) := by
  simp only [execGetBus2, State.whenIdle_next, next_eq_iff]

theorem execRelUsb_next {s t : State} : execRelUsb s = .next t ↔
    s.busy = false ∧ t = (s.record (.cmd .relUsb true)).start 10 := by
  simp only [execRelUsb, State.whenIdle_next, next_eq_iff]

theorem execCfgInit_next {s t : State} : execCfgInit s = .next t ↔
    (s.busy = true ∧ s.upc = 0) ∧
    t = if s.changesRunningMultiplier (cfgInitWord s.params) then s.refuse .multiplierChangeWhileEnabled
      else (s.busWrite32 .cfgr (cfgInitWord s.params)).goto 1 := by
  simp only [execCfgInit, State.selected_next, next_eq_iff]

theorem execCrFull_next {s t : State} : execCrFull s = .next t ↔
    (s.busy = true ∧ s.upc = 1) ∧
    t = ((s.busWrite32 .cr (crWord s.params)).goto 2).enter phOscillatorsStarting := by
  simp only [execCrFull, State.selected_next, next_eq_iff]

theorem execLockPoll_next {s t : State} : execLockPoll s = .next t ↔
    (s.busy = true ∧ s.upc = 2) ∧ s.capReached = false ∧ t = s.pollOnce := by
  rw [execLockPoll, State.selected_next, guarded_next (by intro t h; cases h)]

theorem execMtSet_next {s t : State} : execMtSet s = .next t ↔
    (s.busy = true ∧ s.upc = 3) ∧
    t = ((s.busWrite32 .mtcr (mtWord s.params)).goto 4).enter phMemoryTimingSet := by
  simp only [execMtSet, State.selected_next, next_eq_iff]

theorem execCfgSwitch_next {s t : State} : execCfgSwitch s = .next t ↔
    (s.busy = true ∧ s.upc = 4) ∧
    t = if s.changesRunningMultiplier (cfgSwitchWord s.params) then s.refuse .multiplierChangeWhileEnabled
      else ((s.busWrite32 .cfgr (cfgSwitchWord s.params)).goto 5).enter phClockSwitched := by
  simp only [execCfgSwitch, State.selected_next, next_eq_iff]

theorem State.gate_next {s t : State} {c : Category} : s.gate c = .next t ↔
    (s.busy = true ∧ s.upc = gateUpc s.params.gateOrder c) ∧
    t = if s.upc = 9 then (s.enableClocks c).complete else (s.enableClocks c).goto (s.upc + 1) := by
  simp only [State.gate, State.selected_next, next_eq_iff]

theorem execUsbRstRel_next {s t : State} : execUsbRstRel s = .next t ↔
    (s.busy = true ∧ s.upc = 10) ∧
    t = (s.readModifyWrite (usbRstTarget s.params) (· &&& ~~~usbRstMask s.params)).finish := by
  simp only [execUsbRstRel, State.selected_next, next_eq_iff]

/-- The meaning of every gate micro-operation is `GATE` of its category. -/
theorem exec_gateInstr (c : Category) (s : State) : exec (gateInstr c) s = s.gate c := by
  cases c <;> rfl

/-- What a step can do: what is asked under parameters the model does not run is turned away, ENV locks,
or the selected operation runs. -/
theorem step_next {s t : State} (h : step s = .next t) :
    (∃ r, paramsRefusal s.params = some r ∧ t = s.turnAway r) ∨
    paramsRefusal s.params = none ∧ s.stopped = none ∧
    (s.envActs = true ∧ t = s.envLock.tick ∨
      s.envActs = false ∧ exec (decode s.params.gateOrder s.fetch) s.advance = .next t) := by
  unfold step State.turn at h
  cases hp : paramsRefusal s.params with
  | some r => rw [hp] at h; exact .inl ⟨r, rfl, next_eq_iff.mp h⟩
  | none =>
    cases hs : s.stopped with
    | some f => rw [hp, hs] at h; cases h
    | none =>
      refine .inr ⟨rfl, rfl, ?_⟩
      cases he : s.envActs with
      | true => rw [hp, hs, he] at h; exact .inl ⟨rfl, next_eq_iff.mp h⟩
      | false => rw [hp, hs, he] at h; exact .inr ⟨rfl, h⟩

/-- A step under parameters the model does not run. -/
theorem step_turnAway {s : State} {r : Refusal} (hp : paramsRefusal s.params = some r) :
    step s = .next (s.turnAway r) := by
  simp [step, State.turn, hp]

/-- A step that is not stopped and not ENV's runs the selected operation. -/
theorem step_run {s : State} (hp : paramsRefusal s.params = none) (hs : s.stopped = none)
    (he : s.envActs = false) : step s = exec (decode s.params.gateOrder s.fetch) s.advance := by
  simp [step, State.turn, hp, hs, he]

/-- A step in which ENV acts. -/
theorem step_env {s : State} (hp : paramsRefusal s.params = none) (hs : s.stopped = none)
    (he : s.envActs = true) : step s = .next s.envLock.tick := by
  simp [step, State.turn, hp, hs, he]

/-- Well-formed parameters are not refused. -/
theorem paramsRefusal_none {p : Params} (h : p.wellFormed = true) : paramsRefusal p = none := by
  have h' := h
  simp only [Params.wellFormed, Bool.and_eq_true] at h'
  simp [paramsRefusal, h, h']

/-- Parameters that are not refused are well-formed. -/
theorem wellFormed_of_not_refused {p : Params} (h : paramsRefusal p = none) : p.wellFormed = true := by
  unfold paramsRefusal at h
  split at h
  · cases h
  · split at h
    · cases h
    · split at h
      · cases h
      · simp_all

/-- What a step can do under well-formed parameters. -/
theorem step_next_of_wellFormed {s t : State} (wf : s.params.wellFormed = true) (h : step s = .next t) :
    s.stopped = none ∧ (s.envActs = true ∧ t = s.envLock.tick ∨
      s.envActs = false ∧ exec (decode s.params.gateOrder s.fetch) s.advance = .next t) := by
  rcases step_next h with ⟨r, hp, -⟩ | ⟨-, hs, he⟩
  · rw [paramsRefusal_none wf] at hp
    cases hp
  · exact ⟨hs, he⟩

theorem State.advance_busy {s : State} (h : s.busy = true) : s.advance = s.tick := by
  simp [State.advance, h]

theorem State.advance_idle {s : State} (h : s.busy = false) :
    s.advance = { s.tick with port := s.port.tail } := by
  simp [State.advance, h]

theorem State.fetch_busy {s : State} (h : s.busy = true) : s.fetch = .uop s.upc := by
  simp [State.fetch, h]

@[simp] theorem State.advance_params (s : State) : s.advance.params = s.params := by
  unfold State.advance; split <;> rfl

@[simp] theorem State.advance_refused (s : State) : s.advance.refused = s.refused := by
  unfold State.advance; split <;> rfl

@[simp] theorem State.advance_polls (s : State) : s.advance.polls = s.polls := by
  unfold State.advance; split <;> rfl

@[simp] theorem State.advance_trace (s : State) : s.advance.trace = s.trace := by
  unfold State.advance; split <;> rfl

theorem State.advance_reg (s : State) (x : Reg) : s.advance.reg x = s.reg x := by
  unfold State.advance; split <;> cases x <;> rfl

/-- What turning away leaves alone: no parameter, no register, no poll, nothing of the sequencer
changes. -/
theorem State.turnAway_frame (s : State) (r : Refusal) :
    (s.turnAway r).params = s.params ∧ (∀ x : Reg, (s.turnAway r).reg x = s.reg x) ∧
    (s.turnAway r).upc = s.upc ∧ (s.turnAway r).phase = s.phase ∧ (s.turnAway r).busy = s.busy ∧
    (s.turnAway r).polls = s.polls ∧ (s.refused = true → (s.turnAway r).refused = true) ∧
    ∃ es, (s.turnAway r).trace = s.trace ++ es := by
  have e : s.advance.upc = s.upc ∧ s.advance.phase = s.phase ∧ s.advance.busy = s.busy := by
    unfold State.advance; split <;> exact ⟨rfl, rfl, rfl⟩
  unfold State.turnAway
  split
  · simp [e, State.advance_reg]
  · split <;> simp [e, State.advance_reg]

theorem State.lockEnabled_iff {s : State} : s.lockEnabled = true ↔
    s.params.layout.mulEn.get s.cr = 1 ∧ s.params.layout.mulLock.get s.cr = 0 ∧
    s.params.layout.mulSrc.get s.cfgr = s.params.enc.mulSrcExtDivided ∧
    s.params.layout.xoscEn.get s.cr = 1 := by
  simp [State.lockEnabled, and_assoc]

/-- ENV acts only where `EnvLock` is enabled. -/
theorem State.lockEnabled_of_envActs {s : State} (h : s.envActs = true) : s.lockEnabled = true := by
  simp only [State.envActs, Bool.and_eq_true] at h
  exact h.1.1

theorem State.envActs_of_not_enabled {s : State} (h : s.lockEnabled = false) : s.envActs = false := by
  simp [State.envActs, h]

/-- A poll that reads the lock as 0. -/
theorem State.pollOnce_unlocked {s : State} (h : s.params.layout.mulLock.get s.cr ≠ 1) :
    s.pollOnce = { s with
      t := s.cr, polls := s.polls + 1, upc := 2, trace := s.trace ++ [.rd .cr s.cr] } := by
  have e : (s.loadT .cr).countPoll.t = s.cr := rfl
  unfold State.pollOnce
  simp only [e]
  rw [if_neg h]
  rfl

/-- A poll that reads the lock as 1. -/
theorem State.pollOnce_locked {s : State} (h : s.params.layout.mulLock.get s.cr = 1) :
    s.pollOnce = { s with
      t := s.cr, polls := s.polls + 1, upc := 3, phase := phMultiplierLocked,
      trace := s.trace ++ [.rd .cr s.cr] } := by
  have e : (s.loadT .cr).countPoll.t = s.cr := rfl
  unfold State.pollOnce
  simp only [e]
  rw [if_pos h]
  simp [State.enter, State.goto, State.countPoll, State.loadT, State.busRead32, State.record, State.reg]

end Sys2Proof.Machine
end

