-- ==== Sys2Proof/Laws/PerInstr.lean ====
section
/-! SUPPORT. The statements made per instruction. Family `CodeFormat`: HOST can issue exactly the
operations whose code has the format of the command port (30_encoding.md R110, R119). -/

namespace Sys2Proof.Laws.CodeFormat

/-- The code of the instruction is a command code exactly if the instruction is a command. -/
def Statement (i : Instr) : Prop := ∀ o : GateOrder, (∃ c, encode o i = .cmd c) ↔ i.isCommand = true

theorem init : Statement .init := by intro o; simp [encode, Instr.isCommand]
theorem getBus1 : Statement .getBus1 := by intro o; simp [encode, Instr.isCommand]
theorem getBus2 : Statement .getBus2 := by intro o; simp [encode, Instr.isCommand]
theorem relUsb : Statement .relUsb := by intro o; simp [encode, Instr.isCommand]
theorem cfgInit : Statement .cfgInit := by intro o; simp [encode, Instr.isCommand]
theorem crFull : Statement .crFull := by intro o; simp [encode, Instr.isCommand]
theorem lockPoll : Statement .lockPoll := by intro o; simp [encode, Instr.isCommand]
theorem mtSet : Statement .mtSet := by intro o; simp [encode, Instr.isCommand]
theorem cfgSwitch : Statement .cfgSwitch := by intro o; simp [encode, Instr.isCommand]
theorem gateGpio : Statement .gateGpio := by intro o; simp [encode, Instr.isCommand]
theorem gateSerial : Statement .gateSerial := by intro o; simp [encode, Instr.isCommand]
theorem gateAdc : Statement .gateAdc := by intro o; simp [encode, Instr.isCommand]
theorem gateTimer : Statement .gateTimer := by intro o; simp [encode, Instr.isCommand]
theorem gateUsb : Statement .gateUsb := by intro o; simp [encode, Instr.isCommand]
theorem usbRstRel : Statement .usbRstRel := by intro o; simp [encode, Instr.isCommand]
theorem reserved11 : Statement .reserved11 := by intro o; simp [encode, Instr.isCommand]
theorem reserved12 : Statement .reserved12 := by intro o; simp [encode, Instr.isCommand]
theorem reserved13 : Statement .reserved13 := by intro o; simp [encode, Instr.isCommand]
theorem reserved14 : Statement .reserved14 := by intro o; simp [encode, Instr.isCommand]
theorem uIdle : Statement .uIdle := by intro o; simp [encode, Instr.isCommand]

end Sys2Proof.Laws.CodeFormat
end

