-- ==== Sys2Proof/Laws/Safety.lean ====
section
/-! SUPPORT. The definitions of Safety.lean: where the machine can stand, the locked CR word, the trace
marks after one more event, runs put one after the other, and what the five gates set together. -/

namespace Sys2Proof.Machine

/-- Where the machine can stand, case by case. -/
theorem placeOk_cases {u : BitVec 4} {ph : BitVec 3} (h : placeOk u ph = true) :
    (u = 0 ∧ ph = 0) ∨ (u = 1 ∧ ph = 0) ∨ (u = 2 ∧ ph = 1) ∨ (u = 3 ∧ ph = 2) ∨ (u = 4 ∧ ph = 3) ∨
    (u = 5 ∧ ph = 4) ∨ (u = 6 ∧ ph = 4) ∨ (u = 7 ∧ ph = 4) ∨ (u = 8 ∧ ph = 4) ∨ (u = 9 ∧ ph = 4) ∨
    (u = 10 ∧ (ph = 0 ∨ ph = 5)) ∨ (u = 15 ∧ (ph = 0 ∨ ph = 5)) := by
  revert h; revert u ph; decide

/-- Setting the lock in `CR_WORD` gives the locked word. -/
theorem set_mulLock_crWord {p : Params} (wf : p.wellFormed = true) :
    p.layout.mulLock.set (crWord p) 1 = crLocked p := by
  have ml := mulLock_slot wf
  rw [Slot.set_of_get_zero ml.1 (crWord_fields wf).2.2.2]
  show _ ||| p.layout.mulLock.put 1#32 = _
  rw [Slot.put_one_eq_mask ml.1 ml.2]
  rfl

theorem crLocked_fields {p : Params} (wf : p.wellFormed = true) :
    p.layout.mulEn.get (crLocked p) = 1 ∧ p.layout.mulLock.get (crLocked p) = 1 ∧
    p.layout.ioscEn.get (crLocked p) = 1 := by
  have w := crWord_fields wf
  rw [← set_mulLock_crWord wf]
  refine ⟨?_, Slot.get_set_self (mulLock_slot wf).1 _ Slot.holds_one, ?_⟩
  · rw [(get_set_mulLock wf _ _).2.2.2]; exact w.2.2.1
  · rw [(get_set_mulLock wf _ _).1]; exact w.1

/-- A write of `CR_WORD` while the multiplier is not locked stores `CR_WORD`. -/
theorem State.stored_crWord {s : State} (wf : s.params.wellFormed = true)
    (h : s.params.layout.mulLock.get s.cr = 0) : s.stored .cr (crWord s.params) = crWord s.params := by
  have w := crWord_fields wf
  simp only [State.stored]
  rw [if_pos w.2.2.1, h]
  exact Slot.set_zero_of_get_zero (mulLock_slot wf).1 w.2.2.2

/-- ENV has nothing to do where the multiplier is off or already locked. -/
theorem State.lockEnabled_off {s : State} (h : s.params.layout.mulEn.get s.cr = 0) :
    s.lockEnabled = false := by
  simp [State.lockEnabled, h]

theorem State.lockEnabled_locked {s : State} (wf : s.params.wellFormed = true)
    (h : s.cr = crLocked s.params) : s.lockEnabled = false := by
  simp [State.lockEnabled, h, crLocked_fields wf]

/-- A multiplier that is off is not reconfigured while it runs (93_implementation_defined.md U13). -/
theorem State.changesRunningMultiplier_off {s : State} (h : s.params.layout.mulEn.get s.cr = 0) (w : Word) :
    s.changesRunningMultiplier w = false := by
  simp [State.changesRunningMultiplier, h]

/-- CFG_SWITCH rewrites the codes CFG_INIT wrote. -/
theorem State.changesRunningMultiplier_switch {s : State} (wf : s.params.wellFormed = true)
    (h : s.cfgr = cfgInitWord s.params) : s.changesRunningMultiplier (cfgSwitchWord s.params) = false := by
  simp [State.changesRunningMultiplier, h, cfgInitWord_fields wf, cfgSwitchWord_fields wf]

/-- Where the invariant holds, CFG_INIT and CFG_SWITCH are not refused. -/
theorem State.Inv.changes_init {s : State} (h : s.Inv) (hu : s.upc = 0) (w : Word) :
    s.changesRunningMultiplier w = false := by
  have hp := h.place
  rw [hu] at hp
  exact State.changesRunningMultiplier_off (h.fresh (by simpa [placeOk] using hp)).1 w

theorem State.Inv.changes_switch {s : State} (h : s.Inv) (hu : s.upc = 4) :
    s.changesRunningMultiplier (cfgSwitchWord s.params) = false := by
  have hp : s.phase = phMemoryTimingSet := by
    have := h.place
    rw [hu] at this
    simpa [placeOk] using this
  exact State.changesRunningMultiplier_switch h.wf (h.configured (.inr (by rw [hp]; decide)))

/-- What CFG_INIT does where the invariant holds. -/
theorem State.Inv.execCfgInit_next {s t : State} (h : s.Inv) : execCfgInit s = .next t ↔
    (s.busy = true ∧ s.upc = 0) ∧ t = (s.busWrite32 .cfgr (cfgInitWord s.params)).goto 1 := by
  rw [Sys2Proof.Machine.execCfgInit_next]
  exact and_congr_right fun g => by rw [h.changes_init g.2]; simp

/-- What CFG_SWITCH does where the invariant holds. -/
theorem State.Inv.execCfgSwitch_next {s t : State} (h : s.Inv) : execCfgSwitch s = .next t ↔
    (s.busy = true ∧ s.upc = 4) ∧
    t = ((s.busWrite32 .cfgr (cfgSwitchWord s.params)).goto 5).enter phClockSwitched := by
  rw [Sys2Proof.Machine.execCfgSwitch_next]
  exact and_congr_right fun g => by rw [h.changes_switch g.2]; simp

theorem switchMarkFrom_append (p : Params) (m : SwitchMark) (tr : List Event) (e : Event) :
    switchMarkFrom p m (tr ++ [e]) = (switchMarkFrom p m tr).next p e := by
  induction tr generalizing m with
  | nil => rfl
  | cons a l ih => exact ih _

theorem earlyGateFrom_append (p : Params) (m : SwitchMark) (tr : List Event) (e : Event) :
    earlyGateFrom p m (tr ++ [e]) = (earlyGateFrom p m tr || (switchMarkFrom p m tr).early e) := by
  induction tr generalizing m with
  | nil => simp [earlyGateFrom, switchMarkFrom]
  | cons a l ih => simp [earlyGateFrom, switchMarkFrom, ih, Bool.or_assoc]

theorem hzCrRmw_append (tr : List Event) (e : Event) : hzCrRmw (tr ++ [e]) =
    (hzCrRmw tr || match tr.getLast? with
      | some a => isReadCr a && isWriteCr e
      | none => false) := by
  induction tr with
  | nil => rfl
  | cons a l ih =>
    cases l with
    | nil => simp [hzCrRmw]
    | cons b l =>
      simp only [List.cons_append, hzCrRmw] at ih ⊢
      rw [ih, Bool.or_assoc]
      rfl

/-- What one more event has to meet for the trace invariant to go on: the events of every operation but the
waiting ones are appended one at a time. -/
theorem State.TraceInv.append {s t : State} (h : s.TraceInv) (e : Event) (trace : t.trace = s.trace ++ [e])
    (params : t.params = s.params) (polls : t.polls = s.polls + if isReadCr e then 1 else 0)
    (crFull : ∀ v, e = .wr .cr v → v = crWord s.params) (writeCr : isWriteCr e = true → s.upc = 1)
    (early : (switchMarkFrom s.params .noInit s.trace).early e = false)
    (begun : t.upc.toNat ≤ 4 → (switchMarkFrom s.params .noInit s.trace).next s.params e = .before)
    (mark : 4 ≤ t.phase.toNat → (switchMarkFrom s.params .noInit s.trace).next s.params e = .after)
    (beforeCr : t.upc = 1 → e = .wr .cfgr (cfgInitWord s.params))
    (order : (orderMarks s.params).take (t.phase.toNat - 1) =
      (orderMarks s.params).take (s.phase.toNat - 1) ++ if isOrderMark s.params e then [e] else []) :
    t.TraceInv := by
  refine ⟨?_, ?_, ?_, ?_, ?_, ?_, ?_, ?_⟩
  · rw [params, trace, hzEarlyGate, earlyGateFrom_append, early, Bool.or_false]
    exact h.noEarlyGate
  · rw [trace, hzCrRmw_append, h.noCrRmw]
    cases hw : isWriteCr e with
    | false => cases s.trace.getLast? <;> simp
    | true => rw [h.beforeCr (writeCr hw)]; rfl
  · intro h4
    rw [params, trace, switchMarkFrom_append]
    exact begun h4
  · intro h4
    rw [params, trace, switchMarkFrom_append]
    exact mark h4
  · intro h1
    rw [trace, params, beforeCr h1]
    simp
  · intro v hv
    rw [params]
    rw [trace, List.mem_append, List.mem_singleton] at hv
    rcases hv with hv | hv
    · exact h.crFull v hv
    · exact crFull v hv.symm
  · rw [params, trace, List.filter_append, h.order, order]
    congr 1
    cases ho : isOrderMark s.params e <;> simp [ho]
  · rw [polls, trace, List.countP_append, h.polls]
    cases hr : isReadCr e <;> simp [hr]

/-- A run goes on from where its first part ended. -/
theorem State.run_add {a b : Nat} {s t : State} (h : s.run a = .next t) :
    s.run (a + b) = t.run b := by
  induction a generalizing s with
  | zero => simp only [State.run, next_eq_iff] at h; subst h; simp
  | succ a ih =>
    rw [Nat.succ_add]
    simp only [State.run] at h ⊢
    split at h
    · exact ih h
    · cases h
    · cases h

/-- The part of a gate mask that falls on enable register `g`. -/
def gateBits (p : Params) (g : Fin 3) (c : Category) : Word :=
  if gateReg p.gateMap c = g then gateMask p.gateMap c else 0

/-- What a gate does to each enable register. -/
theorem State.enableClocks_penr (s : State) (c : Category) (g : Fin 3) :
    (s.enableClocks c).reg (penr g) = s.reg (penr g) ||| gateBits s.params g c := by
  unfold gateBits
  split
  · rename_i h
    subst h
    exact State.readModifyWrite_reg_self _ _ (penr_ne_cr _)
  · rename_i h
    rw [State.enableClocks, State.readModifyWrite_reg_ne]
    · simp
    · exact fun e => h (penr_injective _ _ e).symm

/-- What a gate leaves alone. -/
theorem State.enableClocks_reg_ne (s : State) (c : Category) {y : Reg} (h : y ≠ gateTarget s.params c) :
    (s.enableClocks c).reg y = s.reg y := State.readModifyWrite_reg_ne _ _ h

theorem enabledBits_eq {p : Params} (wf : p.wellFormed = true) (g : Fin 3) :
    enabledBits p g = gateBits p g .gpio ||| gateBits p g .serial ||| gateBits p g .adc |||
      gateBits p g .timer ||| gateBits p g .usb := by
  have hm := p.gateMap_ok wf
  simp only [enabledBits, GateMap.all, gateBits, gateReg, gateMask, peripheralsOf, gateLoc, List.map_cons,
    List.map_nil, List.foldl_cons, List.foldl_nil, hm]
  split_ifs <;> simp [BitVec.or_assoc]

/-- The bits the five gates set do not depend on the gate order. -/
theorem gateBits_order {p : Params} (wf : p.wellFormed = true) {o : GateOrder}
    (ho : o.isPermutation = true) (g : Fin 3) :
    gateBits p g o.first ||| gateBits p g o.second ||| gateBits p g o.third ||| gateBits p g o.fourth |||
      gateBits p g o.fifth = enabledBits p g := by
  rw [enabledBits_eq wf]
  apply BitVec.eq_of_getLsbD_eq
  intro i hi
  simp only [BitVec.getLsbD_or]
  generalize hM : (fun c => (gateBits p g c).getLsbD i) = M
  have e : ∀ c, (gateBits p g c).getLsbD i = M c := fun c => by rw [← hM]
  simp only [e]
  apply Bool.eq_iff_iff.mpr
  simp only [Bool.or_eq_true]
  constructor
  · have : ∀ c, M c = true → (((M .gpio = true ∨ M .serial = true) ∨ M .adc = true) ∨ M .timer = true) ∨
        M .usb = true := by
      intro c h
      cases c <;> simp [h]
    rintro ((((h | h) | h) | h) | h) <;> exact this _ h
  · have : ∀ c, M c = true → (((M o.first = true ∨ M o.second = true) ∨ M o.third = true) ∨
        M o.fourth = true) ∨ M o.fifth = true := by
      intro c h
      rcases o.covers ho c with e | e | e | e | e <;> rw [e] at h <;> simp [h]
    rintro ((((h | h) | h) | h) | h) <;> exact this _ h

end Sys2Proof.Machine
end

