-- ==== Sys2Proof/Tests/Slice0.lean ====
section
/-! SUPPORT. The model's own tests. Expected values come from 95_test_vectors.md (V numbers), from the
encodings of 30_encoding.md R110, R111 and the words of R105 to R109, not from the model. Each theorem about
behaviour looks at a few fields after ONE step. The last part holds a witness for the hypotheses of every
statement of Certificates/Slice0/Obligations.lean that has any. -/

namespace Sys2Proof.Tests

open Sys2Proof Sys2Proof.Machine

/-! ### Helpers -/

/-- What a test looks at after an outcome, if it is a next state. -/
def after {α : Type} (r : Result) (f : State → α) : Option α :=
  match r with
  | .next t => some (f t)
  | _ => none

/-- The fault of an outcome, if it is one. -/
def faultOf (r : Result) : Option Fault :=
  match r with
  | .fault f => some f
  | _ => none

/-- What was refused, if an outcome is a next state with the sticky mark set. -/
def refusalOf (r : Result) : Option Refusal :=
  match r with
  | .next t => if t.refused then t.reason else none
  | _ => none

/-- The default machine with changed parameters. -/
def withParams (p : Params) : State := State.powerOn p 0 0

/-- A busy machine at a code and a phase. -/
def busyAt (u : BitVec 4) (ph : BitVec 3) : State :=
  { State.reset with busy := true, upc := u, phase := ph }

/-- The machine at the poll, not locked, as in program P1 after event 3. -/
def polling : State :=
  { busyAt 2 phOscillatorsStarting with
    cfgr := 0x001F0400, cr := 0x01010081,
    trace := [.cmd .init true, .wr .cfgr 0x001F0400, .wr .cr 0x01010081] }

/-- The machine at MT_SET, as in P1 after event 5. -/
def locked : State :=
  { polling with
    upc := 3, phase := phMultiplierLocked, cr := 0x03010081, polls := 1,
    trace := polling.trace ++ [.lock, .rd .cr 0x03010081] }

/-- The machine at CFG_SWITCH, as in P1 after event 6. -/
def timed : State :=
  { locked with
    upc := 4, phase := phMemoryTimingSet, mtcr := 0x12, trace := locked.trace ++ [.wr .mtcr 0x12] }

/-- The machine at the first gate, as in P1 after event 7. -/
def switched : State :=
  { timed with
    upc := 5, phase := phClockSwitched, cfgr := 0x001F8402,
    trace := timed.trace ++ [.wr .cfgr 0x001F8402] }

/-- The machine after the bring-up, with the gates' events left out of the trace. -/
def enabled : State :=
  { switched with
    upc := upcIdle, phase := phPeripheralsEnabled, busy := false, initDone := true,
    penr1 := 0x461C, penr2 := 0x00800001 }

/-! ### Well-formedness: a legal instance, and an ill-formed term for each check -/

theorem test_wellFormed_default : defaultParams.wellFormed = true := by decide

theorem test_wellFormed_operations : Instr.lockPoll.wellFormed = true ∧ Instr.uIdle.wellFormed = true := by
  decide

theorem test_illFormed_reserved : Instr.reserved11.wellFormed = false ∧ Instr.reserved12.wellFormed = false ∧
    Instr.reserved13.wellFormed = false ∧ Instr.reserved14.wellFormed = false := by decide

theorem test_illFormed_slot : Slot.inWord ⟨32, 31⟩ = false ∧ Slot.inWord ⟨3, 4⟩ = false ∧
    Slot.apart ⟨7, 4⟩ ⟨4, 0⟩ = false ∧ Slot.holds ⟨1, 0⟩ 4 = false := by decide

theorem test_illFormed_crOutside :
    Layout.crOk { defaultLayout with mulLock := ⟨32, 32⟩ } = false := by decide

theorem test_illFormed_crOverlap :
    Layout.crOk { defaultLayout with mulLock := ⟨24, 24⟩ } = false := by decide

theorem test_illFormed_crWidths : Layout.crOk { defaultLayout with ioscEn := ⟨1, 0⟩ } = false ∧
    Layout.crOk { defaultLayout with xoscEn := ⟨17, 16⟩ } = false ∧
    Layout.crOk { defaultLayout with mulEn := ⟨24, 23⟩ } = false ∧
    Layout.crOk { defaultLayout with mulLock := ⟨26, 25⟩ } = false := by decide

theorem test_illFormed_cfgr : Layout.cfgrOk { defaultLayout with sysSrc := ⟨2, 0⟩ } = false ∧
    Layout.cfgrOk { defaultLayout with usbDiv := ⟨21, 21⟩ } = false := by decide

theorem test_illFormed_mtcr : Layout.mtcrOk { defaultLayout with ws := ⟨2, 0⟩ } = false ∧
    Layout.mtcrOk { defaultLayout with pfEn := ⟨5, 4⟩ } = false ∧
    Layout.mtcrOk { defaultLayout with hcEn := ⟨3, 2⟩ } = false ∧
    Layout.mtcrOk { defaultLayout with hcEn := ⟨4, 4⟩ } = false := by decide

theorem test_illFormed_addr : AddrMap.ok { defaultAddr with cfgr := 0x40021000 } = false ∧
    AddrMap.ok { defaultAddr with mtcr := 0x40022002 } = false := by decide

theorem test_illFormed_encInjective : Enc.ok defaultLayout { defaultEnc with sysSrcMul := 0 } = false ∧
    Enc.ok defaultLayout { defaultEnc with apb1Div2 := 0 } = false ∧
    Enc.ok defaultLayout { defaultEnc with adcDiv6 := 0 } = false := by decide

theorem test_illFormed_encTooWide : Enc.ok defaultLayout { defaultEnc with sysSrcInt := 4 } = false ∧
    Enc.ok defaultLayout { defaultEnc with sysSrcMul := 4 } = false ∧
    Enc.ok defaultLayout { defaultEnc with ahbDiv1 := 16 } = false ∧
    Enc.ok defaultLayout { defaultEnc with apb1Div1 := 8 } = false ∧
    Enc.ok defaultLayout { defaultEnc with apb1Div2 := 8 } = false ∧
    Enc.ok defaultLayout { defaultEnc with apb2Div1 := 8 } = false ∧
    Enc.ok defaultLayout { defaultEnc with adcDiv2 := 4 } = false ∧
    Enc.ok defaultLayout { defaultEnc with adcDiv6 := 4 } = false ∧
    Enc.ok defaultLayout { defaultEnc with mulSrcExtDivided := 4 } = false ∧
    Enc.ok defaultLayout { defaultEnc with mulFactX9 := 16 } = false := by decide

theorem test_illFormed_trim : { defaultParams with trimValue := 32 }.wellFormed = false := by decide

theorem test_illFormed_gateMapNotInjective :
    { defaultParams with gateMap := { defaultGateMap with usb := ⟨2, 0⟩ } }.wellFormed = false := by decide

theorem test_illFormed_gateMapSplit :
    GateMap.whole { defaultGateMap with gpio1 := ⟨0, 3⟩ } = false ∧
    GateMap.whole { defaultGateMap with gpio2 := ⟨0, 4⟩ } = false ∧
    GateMap.whole { defaultGateMap with adc1 := ⟨0, 10⟩ } = false := by decide

theorem test_illFormed_gateOrder :
    GateOrder.isPermutation ⟨.gpio, .serial, .adc, .timer, .gpio⟩ = false := by decide

theorem test_illFormed_multiplier :
    Params.multiplierSupported { defaultParams with targetUnits := 128 } = false ∧
    Params.multiplierSupported { defaultParams with extDiv := 0, fExtUnits := 0 } = false ∧
    Params.multiplierSupported { defaultParams with fExtUnits := 8 } = false := by decide

theorem test_illFormed_numbers : Params.numbersOk { defaultParams with freqUnit := 0 } = false ∧
    Params.numbersOk { defaultParams with fIntUnits := 0 } = false ∧
    Params.numbersOk { defaultParams with pollCap := some 0 } = false := by decide

/-! ### Decoding: each row's code written out bit by bit from R110, R111 and R114 -/

theorem test_decode_init : decodeTableWord 2 0b00 = some .init := by decide
theorem test_decode_getBus1 : decodeTableWord 2 0b01 = some .getBus1 := by decide
theorem test_decode_getBus2 : decodeTableWord 2 0b10 = some .getBus2 := by decide
theorem test_decode_relUsb : decodeTableWord 2 0b11 = some .relUsb := by decide
theorem test_decode_cfgInit : decodeTableWord 4 0b0000 = some .cfgInit := by decide
theorem test_decode_crFull : decodeTableWord 4 0b0001 = some .crFull := by decide
theorem test_decode_lockPoll : decodeTableWord 4 0b0010 = some .lockPoll := by decide
theorem test_decode_mtSet : decodeTableWord 4 0b0011 = some .mtSet := by decide
theorem test_decode_cfgSwitch : decodeTableWord 4 0b0100 = some .cfgSwitch := by decide
theorem test_decode_gateGpio : decodeTableWord 4 0b0101 = some .gateGpio := by decide
theorem test_decode_gateSerial : decodeTableWord 4 0b0110 = some .gateSerial := by decide
theorem test_decode_gateAdc : decodeTableWord 4 0b0111 = some .gateAdc := by decide
theorem test_decode_gateTimer : decodeTableWord 4 0b1000 = some .gateTimer := by decide
theorem test_decode_gateUsb : decodeTableWord 4 0b1001 = some .gateUsb := by decide
theorem test_decode_usbRstRel : decodeTableWord 4 0b1010 = some .usbRstRel := by decide
theorem test_decode_reserved11 : decodeTableWord 4 0b1011 = some .reserved11 := by decide
theorem test_decode_reserved12 : decodeTableWord 4 0b1100 = some .reserved12 := by decide
theorem test_decode_reserved13 : decodeTableWord 4 0b1101 = some .reserved13 := by decide
theorem test_decode_reserved14 : decodeTableWord 4 0b1110 = some .reserved14 := by decide
theorem test_decode_uIdle : decodeTableWord 4 0b1111 = some .uIdle := by decide

/-- In whole bytes: a micro-operation code above 3, and the values both formats have. -/
theorem test_decode_bytes : decodeTableWord 8 10 = some .usbRstRel ∧ decodeTableWord 8 0 = some .init ∧
    decodeTableWord 8 4 = some .cfgSwitch ∧ decodeTableWord 8 15 = some .uIdle := by decide

/-- What is no code is refused by name. -/
theorem test_decode_refuses : tableCode 2 4 = .error .commandTooWide ∧ tableCode 4 16 = .error .uopTooWide ∧
    tableCode 8 255 = .error .uopTooWide := by decide

/-- Program P5's gate order: `upc` 5 is GATE_USB and 9 is GATE_GPIO. -/
theorem test_decode_gateOrder : decodeUop ⟨.usb, .timer, .adc, .serial, .gpio⟩ 5 = .gateUsb ∧
    decodeUop ⟨.usb, .timer, .adc, .serial, .gpio⟩ 9 = .gateGpio ∧
    encode ⟨.usb, .timer, .adc, .serial, .gpio⟩ .gateTimer = .uop 6 := by decide

/-! ### The constant words: the table of 95 section 2.1, and the masks of R109 -/

theorem test_words : cfgInitWord defaultParams = 0x001F0400 ∧ crWord defaultParams = 0x01010081 ∧
    mtWord defaultParams = 0x00000012 ∧ cfgSwitchWord defaultParams = 0x001F8402 := by decide

/-- The field read-back of `0x001F 8402`, 95 section 2.1. -/
theorem test_readback : defaultLayout.sysSrc.get 0x001F8402 = 0b10 ∧ defaultLayout.ahbDiv.get 0x001F8402 = 0 ∧
    defaultLayout.apb1Div.get 0x001F8402 = 0b100 ∧ defaultLayout.apb2Div.get 0x001F8402 = 0 ∧
    defaultLayout.adcDiv.get 0x001F8402 = 0b10 ∧ defaultLayout.mulSrc.get 0x001F8402 = 0b11 ∧
    defaultLayout.mulFact.get 0x001F8402 = 0b0111 ∧ defaultLayout.usbDiv.get 0x001F8402 = 0 := by decide

theorem test_gateMasks : gateMask defaultGateMap .gpio = 0x1C ∧ gateMask defaultGateMap .serial = 0x4000 ∧
    gateMask defaultGateMap .adc = 0x600 ∧ gateMask defaultGateMap .timer = 1 ∧
    gateMask defaultGateMap .usb = 0x00800000 ∧ usbRstMask defaultParams = 0x00800000 := by decide

/-- A field as wide as the word, at the two ends of R12. -/
theorem test_slot_wholeWord : Slot.mask ⟨31, 0⟩ = 0xFFFFFFFF ∧ Slot.get ⟨31, 0⟩ 0x80000001 = 0x80000001 ∧
    Slot.set ⟨31, 31⟩ 0 1 = 0x80000000 := by decide

/-! ### Reset: R260 to R263 with the defaults of R262 -/

theorem test_reset_registers : State.reset.cr = 0x83 ∧ State.reset.cfgr = 0 ∧ State.reset.penr0 = 0x14 ∧
    State.reset.penr1 = 0 ∧ State.reset.penr2 = 0 ∧ State.reset.prstr0 = 0 ∧ State.reset.prstr1 = 0 ∧
    State.reset.mtcr = 0x30 := by decide

/-- R260: the forced bits win over `RESET_CR_REST` and `RESET_CFGR_REST`. -/
theorem test_reset_forced :
    resetCr { defaultParams with resetWords := { defaultResetWords with crRest := 0xFFFFFFFE } } =
      0xFCFFFFFF ∧
    resetCfgr { defaultParams with resetWords := { defaultResetWords with cfgrRest := 0xFFFFFFFF } } =
      0xFFFFFFFC := by decide

/-! ### Commands: V60 to V67 -/

/-- V60. -/
theorem test_init_accepted : after (exec .init State.reset) (fun t => (t.busy, t.upc, t.trace)) =
    some (true, 0, [.cmd .init true]) := by decide

/-- V61. -/
theorem test_init_refused : after (exec .init enabled) (fun t => (t.refused, t.busy, t.cr, t.cfgr, t.penr1)) =
    some (true, false, 0x03010081, 0x001F8402, 0x461C) := by decide

/-- V62 and V64: the same answer before and after the bring-up. -/
theorem test_getBus1 : after (exec .getBus1 State.reset) (fun t => (t.resp, t.busy)) = some (0x02255100, false) ∧
    after (exec .getBus1 enabled) (fun t => t.resp) = some 36000000 := by decide

/-- V65. -/
theorem test_getBus1_units :
    after (exec .getBus1 (withParams { defaultParams with freqUnit := 1 })) (fun t => t.resp) = some 36 := by
  decide

/-- V63 and V64. -/
theorem test_getBus2 : after (exec .getBus2 State.reset) (fun t => (t.resp, t.trace)) =
      some (0x044AA200, [.cmd .getBus2 true, .resp 72000000]) ∧
    after (exec .getBus2 enabled) (fun t => t.resp) = some 72000000 := by decide

/-- V65. -/
theorem test_getBus2_units :
    after (exec .getBus2 (withParams { defaultParams with freqUnit := 1 })) (fun t => t.resp) = some 72 := by
  decide

/-- V66. -/
theorem test_relUsb : after (exec .relUsb State.reset) (fun t => (t.upc, t.busy, t.phase)) =
    some (10, true, phReset) := by decide

/-- V67: the port is closed during the poll. -/
theorem test_portClosed : faultOf (exec .init polling) = some .portClosed ∧
    faultOf (exec .relUsb polling) = some .portClosed := by decide

/-! ### Clock Selector/Multiplier: V1 to V13 -/

/-- V1. -/
theorem test_cfgInit : after (exec .cfgInit (busyAt 0 phReset)) (fun t => (t.cfgr, t.upc, t.phase, t.trace)) =
    some (0x001F0400, 1, phReset, [.wr .cfgr 0x001F0400]) := by decide

/-- V2: a full write clears what was set. -/
theorem test_cfgInit_full :
    after (exec .cfgInit { busyAt 0 phReset with cfgr := 0xFFFFFFFF }) (fun t => t.cfgr) =
      some 0x001F0400 := by decide

/-- V3. -/
theorem test_crFull : after (exec .crFull (busyAt 1 phReset)) (fun t => (t.cr, t.upc, t.phase)) =
    some (0x01010081, 2, phOscillatorsStarting) := by decide

/-- V4: nothing of the old value survives. -/
theorem test_crFull_full : after (exec .crFull { busyAt 1 phReset with cr := 0xFF83 }) (fun t => t.cr) =
    some 0x01010081 := by decide

/-- V5. -/
theorem test_lockPoll_unlocked :
    after (exec .lockPoll polling) (fun t => (t.t, t.polls, t.upc, t.phase, t.cr)) =
      some (0x01010081, 1, 2, phOscillatorsStarting, 0x01010081) := by decide

/-- V6. -/
theorem test_lockPoll_locked :
    after (exec .lockPoll { polling with cr := 0x03010081, polls := 1 })
      (fun t => (t.t, t.polls, t.upc, t.phase)) = some (0x03010081, 2, 3, phMultiplierLocked) := by decide

/-- V7, V8 and V9: where `EnvLock` is enabled, and what it leaves. -/
theorem test_envLock : polling.lockEnabled = true ∧ polling.envLock.cr = 0x03010081 ∧
    State.lockEnabled { polling with cr := 0x83 } = false ∧
    State.lockEnabled { polling with cr := 0x01000081 } = false := by decide

/-- V10 and V11: the lock goes with the enable, and a write cannot set it. -/
theorem test_busWrite_cr :
    State.cr (State.busWrite32 { polling with cr := 0x03010081 } .cr 0x00010081) = 0x00010081 ∧
    (polling.busWrite32 .cr 0x03010081).cr = 0x01010081 := by decide

/-- V12 with N = 1: no lock before the first poll, the lock right after it. -/
theorem test_lockOracle :
    State.envActs { polling with params := { defaultParams with lockOracle := .after 1 } } = false ∧
    State.envActs { polling with params := { defaultParams with lockOracle := .after 1 }, polls := 1 } = true ∧
    State.envActs { polling with params := { defaultParams with lockOracle := .never } } = false := by decide

/-- V13: the poll cap stops the run with `polls = 4`. -/
theorem test_pollCap :
    faultOf (step { polling with
      params := { defaultParams with lockOracle := .never, pollCap := some 4 }, polls := 4 }) =
      some .pollCapReached := by decide

/-! ### Memory timing and clock switch: V20 to V33 -/

/-- V21. -/
theorem test_mtSet : after (exec .mtSet { locked with mtcr := 0x3B }) (fun t => (t.mtcr, t.upc, t.phase)) =
    some (0x12, 4, phMemoryTimingSet) := by decide

/-- V22. -/
theorem test_mtSet_one : after (exec .mtSet
      { locked with params := { defaultParams with wsTarget := 1 }, mtcr := 0 }) (fun t => t.mtcr) =
    some 0x11 := by decide

/-- V23 and V24. -/
theorem test_hzFetch : State.hzFetch { switched with mtcr := 0x11 } = true ∧
    State.reset.hzFetch = false := by decide

/-- V23 as the step renders it. -/
theorem test_hzFetch_step : faultOf (step { switched with mtcr := 0x11 }) = some .hzFetch := by decide

/-- V30 and V31. -/
theorem test_cfgSwitch : after (exec .cfgSwitch timed)
      (fun t => (t.cfgr, t.upc, t.phase, t.hzFetch, t.hzUnlocked)) =
    some (0x001F8402, 5, phClockSwitched, false, false) := by decide

/-- 93 U13, 00_scope.md R15: other multiplier codes under a running multiplier; nothing is written. -/
theorem test_cfgSwitch_refused :
    refusalOf (exec .cfgSwitch { timed with cfgr := 0x001B0400 }) =
      some .multiplierChangeWhileEnabled ∧
    after (exec .cfgSwitch { timed with cfgr := 0x001B0400 }) (fun t => (t.cfgr, t.upc)) =
      some (0x001B0400, 4) := by decide

/-- V32. -/
theorem test_hzUnlocked : State.hzUnlocked { switched with cr := 0x01010081 } = true ∧
    faultOf (step { switched with cr := 0x01010081 }) = some .hzUnlocked := by decide

/-- V30: the clocks after the switch, in units. -/
theorem test_clocks_after : switched.sysclk = some 72 ∧ switched.ahb = some 72 ∧ switched.apb1 = some 36 ∧
    switched.apb2 = some 72 ∧ switched.adcclk = some 12 := by
  have h0 : switched.sysclk = some 72 := rfl
  have h1 : ahbDivisor switched.params.enc (switched.params.layout.ahbDiv.get switched.cfgr) = some 1 := rfl
  have h2 : apb1Divisor switched.params.enc (switched.params.layout.apb1Div.get switched.cfgr) = some 2 := rfl
  have h3 : apb2Divisor switched.params.enc (switched.params.layout.apb2Div.get switched.cfgr) = some 1 := rfl
  have h4 : adcDivisor switched.params.enc (switched.params.layout.adcDiv.get switched.cfgr) = some 6 := rfl
  simp only [State.ahb, State.apb1, State.apb2, State.adcclk, h0, h1, h2, h3, h4, divided]
  norm_num

/-- V33: the clocks before the switch. -/
theorem test_clocks_before : timed.sysclk = some 8 ∧ timed.apb1 = some 4 ∧ timed.apb2 = some 8 ∧
    timed.adcclk = some 4 := by
  have h0 : timed.sysclk = some 8 := rfl
  have h2 : apb1Divisor timed.params.enc (timed.params.layout.apb1Div.get timed.cfgr) = some 2 := rfl
  have h3 : apb2Divisor timed.params.enc (timed.params.layout.apb2Div.get timed.cfgr) = some 1 := rfl
  have h4 : adcDivisor timed.params.enc (timed.params.layout.adcDiv.get timed.cfgr) = some 2 := rfl
  simp only [State.apb1, State.apb2, State.adcclk, h0, h2, h3, h4, divided]
  norm_num

/-! ### Peripheral gates: V40 to V51 -/

/-- V40. -/
theorem test_gateGpio : after (exec .gateGpio { switched with trace := [] }) (fun t => (t.upc, t.trace)) =
    some (6, [.rd .penr1 0, .wr .penr1 0x1C]) := by decide

/-- V41 and V47. -/
theorem test_gateGpio_bits : after (exec .gateGpio { switched with penr1 := 0xFFFFFFE3, penr2 := 0x00800001 })
    (fun t => (t.penr1, t.penr2)) = some (0xFFFFFFFF, 0x00800001) := by decide

/-- V43. -/
theorem test_gateSerial : after (exec .gateSerial { switched with upc := 6, penr1 := 0x1C })
    (fun t => (t.penr1, t.upc, t.t)) = some (0x401C, 7, 0x1C) := by decide

/-- V44. -/
theorem test_gateAdc : after (exec .gateAdc { switched with upc := 7, penr1 := 0x401C })
    (fun t => (t.penr1, t.upc)) = some (0x461C, 8) := by decide

/-- V45. -/
theorem test_gateTimer : after (exec .gateTimer { switched with upc := 8 })
    (fun t => (t.penr2, t.penr1, t.upc)) = some (1, 0, 9) := by decide

/-- V46. -/
theorem test_gateUsb : after (exec .gateUsb { switched with upc := 9, penr1 := 0x461C, penr2 := 1 })
    (fun t => (t.penr2, t.penr1)) = some (0x00800001, 0x461C) := by decide

/-- V48. -/
theorem test_gateUsb_completes : after (exec .gateUsb { switched with upc := 9 })
    (fun t => (t.upc, t.busy, t.initDone, t.phase)) = some (15, false, true, 5) := by decide

/-- V49. -/
theorem test_usbRstRel : after (exec .usbRstRel { busyAt 10 phReset with prstr1 := 0x00800000 })
    (fun t => (t.upc, t.busy, t.phase, t.trace)) =
    some (15, false, phReset, [.rd .prstr1 0x00800000, .wr .prstr1 0]) := by decide

/-- V50 and V51. -/
theorem test_usbRstRel_bits :
    after (exec .usbRstRel { busyAt 10 phReset with prstr1 := 0xFFFFFFFF }) (fun t => t.prstr1) =
      some 0xFF7FFFFF ∧
    after (exec .usbRstRel (busyAt 10 phReset)) (fun t => t.prstr1) = some 0 := by decide

/-! ### Idle, reserved codes, hazards of the trace, refused parameters -/

/-- R200: SEQ has no step in `U_IDLE`; the wait changes nothing. -/
theorem test_uIdle : after (exec .uIdle enabled) id = some enabled := by decide

/-- R114. -/
theorem test_reserved : faultOf (step (busyAt 11 phReset)) = some .reservedUpc ∧
    faultOf (step (busyAt 12 phReset)) = some .reservedUpc ∧
    faultOf (step (busyAt 13 phReset)) = some .reservedUpc ∧
    faultOf (step (busyAt 14 phReset)) = some .reservedUpc := by decide

/-- 93 U10: phase codes 6 and 7. -/
theorem test_reservedPhase : faultOf (step { State.reset with phase := 6 }) = some .reservedPhase ∧
    faultOf (step { State.reset with phase := 7 }) = some .reservedPhase := by decide

/-- R273: an enable write before the switch of that INIT, and one after it. -/
theorem test_hzEarlyGate :
    hzEarlyGate defaultParams [.cmd .init true, .wr .cfgr 0x001F0400, .wr .penr1 0x1C] = true ∧
    hzEarlyGate defaultParams [.cmd .init true, .wr .cfgr 0x001F8402, .wr .penr1 0x1C] = false := by decide

/-- R275 and 95 S2. -/
theorem test_hzCrRmw : hzCrRmw [.rd .cr 0x83, .wr .cr 0x01010081] = true ∧
    hzCrRmw [.rd .cr 0x83, .lock, .wr .cr 0x01010081] = false := by decide

/-- A machine of which an INIT is asked. -/
def asked (p : Params) : State := { withParams p with port := [0b00#2] }

/-- 92 D11, 30_encoding.md R113, 00_scope.md R8: INIT is refused with the reason. -/
theorem test_refusedParameters :
    refusalOf (step (asked { defaultParams with gateMap := { defaultGateMap with adc1 := ⟨0, 10⟩ } })) =
      some .splitGateCategory ∧
    refusalOf (step (asked { defaultParams with targetUnits := 128 })) =
      some .unsupportedMultiplierSetting ∧
    refusalOf (step (asked { defaultParams with freqUnit := 0 })) = some .illFormedParameters := by decide

/-- 00_scope.md R15, 44_commands.md R200: the refused command is not carried out, and recorded. -/
theorem test_refusedParameters_effect :
    after (step (asked { defaultParams with targetUnits := 128 })) (fun t => (t.busy, t.upc, t.trace)) =
      some (false, upcIdle, [.cmd .init false]) := by decide

/-! ### Raw addresses and bytes: R73 to R78 -/

/-- R78: an address of no register, a misaligned one, and one of a register. -/
theorem test_rawAddress :
    State.reset.memRead32 0x40021008 = .error (State.reset.refuse .notARegister) ∧
    (State.reset.refuse .notARegister).refused = true ∧
    State.reset.memRead32 0x40021001 = .error (State.reset.refuse .notARegister) ∧
    State.reset.memRead32 0x40022000 = .ok (0x30, State.reset.record (.rd .mtcr 0x30)) := by decide

/-- R75: the four bytes of a register, and none beside it. -/
theorem test_bytes : State.busByte { State.reset with cr := 0x03010081 } 0x40021000 = some 0x81 ∧
    State.busByte { State.reset with cr := 0x03010081 } 0x40021003 = some 0x03 ∧
    State.reset.busByte 0x40021008 = none := by decide

/-! ### Placing and stepping -/

/-- A placed command runs in the very next step after reset. -/
theorem test_place_command : after (step (State.reset.withFetchWord 2 0b00)) (fun t => (t.upc, t.busy)) =
    some (0, true) := by decide

/-- A placed micro-operation does too. -/
theorem test_place_uop : after (step (State.reset.withFetchWord 4 0b0011)) (fun t => (t.mtcr, t.upc)) =
    some (0x12, 4) := by decide

/-- ENV acts before SEQ where the oracle says so: P1 event 4. -/
theorem test_step_env :
    after (step { polling with params := { defaultParams with lockOracle := .after 0 } })
      (fun t => (t.cr, t.upc, t.polls)) = some (0x03010081, 2, 0) := by decide

/-! ### Witnesses: for each statement with hypotheses, a state and operands that meet them all -/

/-- An outcome that is a next state. -/
theorem next_of_after {r : Result} (h : after r (fun _ => ()) = some ()) : ∃ t, r = .next t := by
  cases r <;> simp_all [after]

/-- An outcome that is a fault. -/
theorem fault_of {r : Result} {f : Fault} (h : faultOf r = some f) : r = .fault f := by
  cases r <;> simp_all [faultOf]

/-- P5's gate order. -/
def reversed : GateOrder := ⟨.usb, .timer, .adc, .serial, .gpio⟩

/-- The machine at the poll with ENV resolved. -/
def pollingWith (o : LockOracle) (cap : Option Nat) : State :=
  { polling with params := { defaultParams with lockOracle := o, pollCap := cap } }

theorem inv_reset : State.reset.Inv := by constructor <;> decide
theorem inv_polling : polling.Inv := by constructor <;> decide
theorem inv_locked : locked.Inv := by constructor <;> decide
theorem inv_timed : timed.Inv := by constructor <;> decide
theorem inv_switched : switched.Inv := by constructor <;> decide
theorem inv_enabled : enabled.Inv := by constructor <;> decide

theorem traceInv_reset : State.reset.TraceInv :=
  ⟨by decide, by decide, by decide, by decide, by decide, (fun _ h => by cases h), by decide, by decide⟩

theorem traceInv_polling : polling.TraceInv := by
  refine ⟨by decide, by decide, by decide, by decide, by decide, fun v h => ?_, by decide, by decide⟩
  simp only [polling, List.mem_cons, List.not_mem_nil, or_false, Event.wr.injEq, reduceCtorEq,
    false_and, true_and, false_or] at h
  rw [h]
  decide

theorem traceInv_switched : switched.TraceInv := by
  refine ⟨by decide, by decide, by decide, by decide, by decide, fun v h => ?_, by decide, by decide⟩
  simp only [switched, timed, locked, polling, List.mem_append, List.mem_cons, List.not_mem_nil, or_false,
    Event.wr.injEq, reduceCtorEq, false_and, true_and, false_or] at h
  rw [h]
  decide

/-- INIT asked of the machine at reset, with the lock after a number of polls or never. -/
def launched (o : LockOracle) : State :=
  { withParams { defaultParams with lockOracle := o } with port := [0b00#2, 0b11#2] }

theorem inv_launched : (launched (.after 5)).Inv := by constructor <;> decide

theorem traceInv_launched : (launched (.after 5)).TraceInv :=
  ⟨by decide, by decide, by decide, by decide, by decide, (fun _ h => by cases h), by decide, by decide⟩

theorem witness_DecodeOfEncodeIsTheInstruction :
    defaultGateOrder.isPermutation = true ∧ reversed.isPermutation = true := by decide

theorem witness_EncodeOfDecodeIsTheCode :
    defaultGateOrder.isPermutation = true ∧ reversed.isPermutation = true := by decide

/-- One bit of each field that differs: 95 section 2.1, `0x0000 8002`. -/
theorem witness_ConfigurationWordsDifferOnlyInSourceAndAdcDivider :
    defaultParams.wellFormed = true ∧
    (cfgSwitchWord defaultParams).getLsbD 1 ≠ (cfgInitWord defaultParams).getLsbD 1 ∧
    (cfgSwitchWord defaultParams).getLsbD 15 ≠ (cfgInitWord defaultParams).getLsbD 15 := by decide

theorem witness_InitFromResetStartsTheSequencer :
    State.reset.busy = false ∧ State.reset.phase = phReset := by decide

theorem witness_InitAfterResetIsRefused : enabled.busy = false ∧ enabled.phase ≠ phReset := by decide

/-- Also the largest units whose constants fit, and the next one. -/
theorem witness_FrequencyCommandsAnswerTheConstants :
    State.reset.params.wellFormed = true ∧ State.reset.busy = false ∧
    { defaultParams with freqUnit := 119304647 }.wellFormed = true ∧ 36 * 119304647 < 2 ^ 32 ∧
    ¬ 36 * 119304648 < 2 ^ 32 ∧ { defaultParams with freqUnit := 59652323 }.wellFormed = true ∧
    72 * 59652323 < 2 ^ 32 ∧ ¬ 72 * 59652324 < 2 ^ 32 := by decide

theorem witness_ReleaseUsbStartsTheReleaseInAnyPhase :
    State.reset.busy = false ∧ enabled.busy = false ∧ State.reset.phase ≠ enabled.phase := by decide

theorem witness_PortIsClosedWhileBusy : polling.busy = true ∧ Instr.init.isCommand = true ∧
    Instr.getBus1.isCommand = true ∧ Instr.getBus2.isCommand = true ∧ Instr.relUsb.isCommand = true := by
  decide

theorem witness_CfgInitProgramsTheConfiguration :
    (busyAt 0 phReset).params.wellFormed = true ∧ (busyAt 0 phReset).busy = true ∧
    (busyAt 0 phReset).upc = 0 ∧
    (busyAt 0 phReset).changesRunningMultiplier (cfgInitWord defaultParams) = false := by decide

/-- A differing source at CFG_INIT, a differing factor at CFG_SWITCH. -/
theorem witness_RunningMultiplierIsNotReconfigured :
    defaultLayout.mulEn.get 0x01010081 = 1 ∧
    defaultLayout.mulSrc.get (cfgInitWord defaultParams) ≠ defaultLayout.mulSrc.get 0x001C0000 ∧
    defaultLayout.mulFact.get (cfgInitWord defaultParams) = defaultLayout.mulFact.get 0x001C0000 ∧
    defaultLayout.mulFact.get (cfgSwitchWord defaultParams) ≠ defaultLayout.mulFact.get 0x001B0400 ∧
    defaultLayout.mulSrc.get (cfgSwitchWord defaultParams) = defaultLayout.mulSrc.get 0x001B0400 ∧
    (busyAt 0 phReset).busy = true ∧ timed.busy = true ∧ timed.upc = 4 ∧ timed.cr = 0x03010081 ∧
    defaultLayout.mulEn.get 0x03010081 = 1 := by decide

theorem witness_CrFullEnablesOscillatorsAndMultiplier :
    (busyAt 1 phReset).params.wellFormed = true ∧ (busyAt 1 phReset).busy = true ∧
    (busyAt 1 phReset).upc = 1 := by decide

/-- Both cases of the lock. -/
theorem witness_LockPollGoesOnOnlyWhenLocked : polling.busy = true ∧ polling.upc = 2 ∧
    polling.capReached = false ∧ defaultLayout.mulLock.get polling.cr ≠ 1 ∧
    State.capReached { polling with cr := 0x03010081 } = false ∧
    defaultLayout.mulLock.get 0x03010081 = 1 := by decide

theorem witness_PollCapStopsTheRun :
    (pollingWith .free (some 4)).params.wellFormed = true ∧
    State.stopped { pollingWith .free (some 4) with polls := 4 } = none ∧
    (pollingWith .free (some 4)).busy = true ∧ (pollingWith .free (some 4)).upc = 2 ∧
    (pollingWith .free (some 4)).params.pollCap = some 4 := by decide

theorem witness_MtSetRaisesTheWaitStates :
    locked.params.wellFormed = true ∧ locked.busy = true ∧ locked.upc = 3 := by decide

theorem witness_CfgSwitchSelectsTheMultiplier : timed.params.wellFormed = true ∧ timed.busy = true ∧
    timed.upc = 4 ∧ timed.changesRunningMultiplier (cfgSwitchWord timed.params) = false := by decide

/-- The first and the fourth gate. -/
theorem witness_GateEnablesItsCategory : switched.busy = true ∧
    switched.upc = gateUpc defaultGateOrder .gpio ∧ switched.upc ≠ 9 ∧
    gateUpc defaultGateOrder .timer = 8 := by decide

/-- GATE_USB in the default order, GATE_GPIO in P5's. -/
theorem witness_FifthGateCompletesTheBringUp : switched.busy = true ∧
    State.upc { switched with upc := 9 } = 9 ∧ gateUpc defaultGateOrder .usb = 9 ∧
    gateUpc reversed .gpio = 9 := by decide

theorem witness_GateChangesOnlyItsOwnBits :
    switched.params.wellFormed = true ∧ ∃ t, exec (gateInstr .gpio) switched = .next t :=
  ⟨by decide, next_of_after (by decide)⟩

theorem witness_UsbResetReleaseClearsOneBit :
    (busyAt 10 phReset).busy = true ∧ (busyAt 10 phReset).upc = 10 := by decide

theorem witness_UsbResetReleaseIsIdempotent : ∃ t, exec .usbRstRel (busyAt 10 phReset) = .next t :=
  next_of_after (by decide)

theorem witness_IdleChangesNothing : State.reset.params.wellFormed = true ∧ State.reset.stopped = none ∧
    State.reset.envActs = false ∧ State.reset.busy = false ∧ State.reset.port = [] := by decide

/-- The first and the last reserved code. -/
theorem witness_ReservedMicroProgramCodesAreStuck :
    (busyAt 11 phReset).params.wellFormed = true ∧ (busyAt 11 phReset).stopped = none ∧
    (busyAt 11 phReset).envActs = false ∧ (busyAt 11 phReset).busy = true ∧
    11 ≤ (busyAt 11 phReset).upc.toNat ∧ (busyAt 14 phReset).stopped = none ∧
    (busyAt 14 phReset).envActs = false ∧ (busyAt 14 phReset).upc.toNat ≤ 14 := by decide

/-- Another code, and the idle block. -/
theorem witness_MicroOperationsNeedTheirCode : Instr.cfgInit.isCommand = false ∧
    Instr.cfgInit.wellFormed = true ∧ Instr.cfgInit ≠ .uIdle ∧
    ¬(polling.busy = true ∧ encode defaultGateOrder .cfgInit = .uop polling.upc) ∧
    ¬(State.reset.busy = true ∧ encode defaultGateOrder .cfgInit = .uop State.reset.upc) := by decide

/-- A value that enables the multiplier, and one that does not. -/
theorem witness_BusWriteStoresTheWord : polling.params.wellFormed = true ∧
    defaultLayout.mulEn.get 0x01010081 = 1 ∧ defaultLayout.mulEn.get 0x00010081 ≠ 1 ∧
    defaultLayout.mulLock.covers 24 = false ∧ Reg.cfgr ≠ Reg.cr := by decide

/-- An address of no register that is aligned, and one that is not. -/
theorem witness_RawAddressesReachTheirRegisterOrAreRefused : State.reset.params.wellFormed = true ∧
    (allRegs.all fun x => regAddr defaultAddr x != 0x40021008) = true ∧
    (0x40021001#32).toNat % 4 ≠ 0 := by decide

theorem witness_BytesAreLittleEndian : State.reset.params.wellFormed = true ∧ 0 < 4 ∧ 3 < 4 := by decide

/-- A writing operation, and an address outside the register it writes. -/
theorem witness_OperationsWriteOnlyTheirRegister :
    (∃ t, exec .cfgInit (busyAt 0 phReset) = .next t) ∧
    writtenReg defaultParams .cfgInit ≠ some .mtcr ∧
    regAt defaultAddr (wordAddr 0x40022000) ≠ some .cfgr :=
  ⟨next_of_after (by decide), by decide, by decide⟩

/-- A command taken off the port, a micro-operation, and the wait with an empty port. -/
theorem witness_StepRunsTheFetchedOperation :
    State.reset.params.wellFormed = true ∧ State.stopped { State.reset with port := [0b00#2] } = none ∧
    State.envActs { State.reset with port := [0b00#2] } = false ∧
    decode defaultGateOrder (State.fetch { State.reset with port := [0b00#2] }) = .init ∧
    locked.stopped = none ∧ locked.envActs = false ∧ decode defaultGateOrder locked.fetch = .mtSet ∧
    State.reset.stopped = none ∧ State.reset.envActs = false ∧
    decode defaultGateOrder State.reset.fetch = .uIdle := by
  decide

/-- A command, a micro-operation, the idle code. -/
theorem witness_PlacedCodeIsFetched : tableCode 2 3 = .ok (.cmd 3) ∧ tableCode 4 14 = .ok (.uop 14) ∧
    tableCode 4 15 = .ok (.uop 15) := by decide

/-- The three settings of the oracle. -/
theorem witness_LockOracleResolvesEnv : (pollingWith (.after 0) none).capReached = false ∧
    (pollingWith (.after 0) none).params.lockOracle = .after 0 ∧
    (pollingWith .never none).capReached = false ∧ (pollingWith .never none).params.lockOracle = .never ∧
    polling.capReached = false ∧ polling.params.lockOracle = .free := by decide

theorem witness_EnvStepSetsTheLock : (pollingWith (.after 0) none).params.wellFormed = true ∧
    (pollingWith (.after 0) none).stopped = none ∧ (pollingWith (.after 0) none).envActs = true := by
  decide

/-- A write of CR that keeps the multiplier on. -/
theorem witness_EnvLockCommutesWithWrites : polling.params.wellFormed = true ∧
    defaultLayout.mulEn.get 0x01010081 = 1 := by decide

/-- One wait state short of the target, and exactly the target without the lock. -/
theorem witness_HazardStatesHaveNoStep : switched.params.wellFormed = true ∧
    defaultLayout.sysSrc.get switched.cfgr = defaultEnc.sysSrcMul ∧
    (defaultLayout.ws.get 0x11).toNat < defaultParams.wsTarget.val ∧
    defaultParams.wsTarget.val ≤ (defaultLayout.ws.get switched.mtcr).toNat ∧
    ¬(defaultLayout.mulEn.get 0x01010081 = 1 ∧ defaultLayout.mulLock.get 0x01010081 = 1) := by decide

/-- Each reason, each of the three cases of what is asked, and under well-formed parameters the last
micro-operation, `upc = 15` in a busy block, and the idle block with an empty port. -/
theorem witness_OnlyIllFormedParametersAreRefused :
    Params.wellFormed { defaultParams with gateMap := { defaultGateMap with adc1 := ⟨0, 10⟩ } } = false ∧
    GateMap.whole { defaultGateMap with adc1 := ⟨0, 10⟩ } = false ∧
    Params.wellFormed { defaultParams with targetUnits := 128 } = false ∧
    defaultParams.gateMap.whole = true ∧
    Params.multiplierSupported { defaultParams with targetUnits := 128 } = false ∧
    Params.wellFormed { defaultParams with freqUnit := 0 } = false ∧
    Params.multiplierSupported { defaultParams with freqUnit := 0 } = true ∧
    (asked { defaultParams with freqUnit := 0 }).busy = false ∧
    (asked { defaultParams with freqUnit := 0 }).port = [0b00#2] ∧
    (withParams { defaultParams with freqUnit := 0 }).port = [] ∧
    State.busy { busyAt 0 phReset with params := { defaultParams with freqUnit := 0 } } = true ∧
    (busyAt 10 phReset).params.wellFormed = true ∧ (busyAt 10 phReset).stopped = none ∧
    (busyAt 10 phReset).capReached = false ∧ (busyAt 10 phReset).upc.toNat ≤ 10 ∧
    (busyAt 15 phReset).params.wellFormed = true ∧ (busyAt 15 phReset).stopped = none ∧
    (busyAt 15 phReset).capReached = false ∧ (busyAt 15 phReset).busy = true ∧
    (busyAt 15 phReset).upc = upcIdle ∧
    State.reset.stopped = none ∧ State.reset.capReached = false ∧ State.reset.busy = false ∧
    refusalOf (step { busyAt 0 phReset with cr := 0x01010081 }) = some .multiplierChangeWhileEnabled := by
  decide

theorem witness_LockIsSticky : defaultLayout.mulEn.get locked.cr = 1 ∧
    defaultLayout.mulLock.get locked.cr = 1 ∧ ∃ t, step locked = .next t :=
  ⟨by decide, by decide, next_of_after (by decide)⟩

theorem witness_RecordsAreNeverTakenBack :
    (∃ t, step { enabled with port := [0b00#2], refused := true } = .next t) :=
  next_of_after (by decide)

/-- A next state and a fault. -/
theorem witness_LatchBeforeAStepIsNeverRead : (∃ t, step locked = .next t) ∧
    step (busyAt 11 phReset) = .fault .reservedUpc :=
  ⟨next_of_after (by decide), fault_of (by decide)⟩

theorem witness_PowerOnForcesTheFourFields : defaultParams.wellFormed = true ∧
    defaultLayout.mulLock.covers 31 = false ∧ defaultLayout.sysSrc.covers 2 = false := by decide

theorem witness_InvariantsHoldAtReset : defaultParams.wellFormed = true := by decide

theorem witness_EveryStepKeepsTheStateInvariant : switched.Inv ∧ ∃ t, step switched = .next t :=
  ⟨inv_switched, next_of_after (by decide)⟩

theorem witness_EveryStepKeepsTheTraceInvariant :
    switched.Inv ∧ switched.TraceInv ∧ ∃ t, step switched = .next t :=
  ⟨inv_switched, traceInv_switched, next_of_after (by decide)⟩

theorem witness_InvariantsExcludeTheHazards : switched.Inv ∧ switched.TraceInv :=
  ⟨inv_switched, traceInv_switched⟩

/-- Also a run that reaches the write of CR. -/
theorem witness_NoRunReachesAHazard : defaultParams.wellFormed = true ∧
    (∃ s, State.run 1 { State.powerOn defaultParams 7 9 with port := [0b11#2], draws := 3 } = .next s) ∧
    after (State.run 3 { State.powerOn defaultParams 7 9 with port := [0b00#2], draws := 3 })
      (fun s => decide (.wr .cr 0x01010081 ∈ s.trace)) = some true :=
  ⟨by decide, next_of_after (by decide), by decide⟩

/-- A busy state, and the idle one with an empty port. -/
theorem witness_MachineNeverStops :
    (polling.Inv ∧ polling.TraceInv ∧ polling.params.pollCap = none) ∧
    State.reset.Inv ∧ State.reset.TraceInv ∧ State.reset.params.pollCap = none ∧ State.reset.port = [] :=
  ⟨⟨inv_polling, traceInv_polling, rfl⟩, inv_reset, traceInv_reset, rfl, rfl⟩

theorem witness_PhaseMovesOnlyForward : locked.Inv ∧ ∃ t, step locked = .next t :=
  ⟨inv_locked, next_of_after (by decide)⟩

theorem witness_LockedMultiplierIsNotYetSelected : locked.Inv ∧ locked.upc = 3 := ⟨inv_locked, rfl⟩

theorem witness_SwitchFindsLockAndWaitStates : timed.Inv ∧ timed.upc = 4 := ⟨inv_timed, rfl⟩

/-- The two phases from the switch on. -/
theorem witness_ClocksAfterTheSwitch :
    switched.Inv ∧ 4 ≤ switched.phase.toNat ∧ enabled.Inv ∧ 4 ≤ enabled.phase.toNat :=
  ⟨inv_switched, by decide, inv_enabled, by decide⟩

theorem witness_WaitStatesAreRaisedBetweenLockAndSwitch :
    switched.Inv ∧ switched.TraceInv ∧ 4 ≤ switched.phase.toNat :=
  ⟨inv_switched, traceInv_switched, by decide⟩

/-- Reset of the default parameters with the lock after five polls, an INIT and a REL_USB to issue. -/
theorem witness_InitBringsTheClocksUp :
    ∃ s : State, s.Inv ∧ s.TraceInv ∧ s.busy = false ∧ s.phase = phReset ∧ s.port = 0b00#2 :: [0b11#2] ∧
      s.params.lockOracle = .after 5 ∧ s.params.pollCap = none :=
  ⟨launched (.after 5), inv_launched, traceInv_launched, rfl, rfl, rfl, rfl, rfl⟩

theorem witness_GateOrderDoesNotMatter : switched.Inv ∧ switched.TraceInv ∧ switched.upc = 5 ∧
    reversed.isPermutation = true :=
  ⟨inv_switched, traceInv_switched, rfl, by decide⟩

/-- The turn after a number of steps, if the run gets there. -/
def turnAfter (j : Nat) (s : State) : Option Turn := after (s.run j) State.turn

/-- No step of the first five is ENV's, whether the lock is to come after five polls or never. -/
theorem test_noEnvBeforeTheOracle :
    ∀ j < 5, turnAfter j (launched (.after 5)) ≠ some .env ∧ turnAfter j (launched .never) ≠ some .env := by
  decide

/-- The lock to come after five polls, and `k = 2`. -/
theorem witness_LockFailureIsAnEndlessPoll :
    ∃ s : State, s.Inv ∧ s.TraceInv ∧ s.busy = false ∧ s.phase = phReset ∧ s.port = 0b00#2 :: [0b11#2] ∧
      s.params.pollCap = none ∧
      ∀ (j : Nat) (u : State), j < 2 + 3 → State.run j s = .next u → u.turn ≠ .env := by
  refine ⟨launched (.after 5), inv_launched, traceInv_launched, rfl, rfl, rfl, rfl, fun j u hj hu e => ?_⟩
  have h := (test_noEnvBeforeTheOracle j hj).1
  rw [turnAfter, hu] at h
  exact h (congrArg some e)

/-- The idle block with nothing to do, after a number of further steps. -/
def waiting (k : Nat) : State := { State.reset with draws := k }

theorem lockEnabled_waiting (k : Nat) : (waiting k).lockEnabled = false := by
  simp only [State.lockEnabled, waiting]
  decide

/-- The idle block waits. -/
theorem step_waiting (k : Nat) : step (waiting k) = .next (waiting (k + 1)) := by
  have hp : paramsRefusal (waiting k).params = none := by
    show paramsRefusal defaultParams = none
    decide
  have hs : (waiting k).stopped = none := by
    have hm : (waiting k).onMultiplier = false := by
      simp only [State.onMultiplier, waiting]
      decide
    have hp5 : (waiting k).phase.toNat ≤ 5 := by
      simp only [waiting]
      decide
    simp only [State.stopped, State.hazard, State.hzFetch, State.hzUnlocked, hm, Bool.false_and,
      Bool.false_eq_true, if_false, show hzEarlyGate (waiting k).params (waiting k).trace = false from rfl,
      show hzCrRmw (waiting k).trace = false from rfl, if_pos hp5]
  have he : (waiting k).envActs = false := by
    simp only [State.envActs, lockEnabled_waiting, Bool.false_and]
  have ht : (waiting k).turn = .run .uIdle := by
    simp only [State.turn, hp, hs, he]
    rfl
  simp only [step, ht]
  rfl

/-- The run that only waits is a run; `LOCK_EVENTUALLY` holds of it, as the lock is never due. -/
theorem witness_CommandsEndIfTheLockComes :
    IsRun waiting ∧ (waiting 0).Inv ∧ LockEventually waiting := by
  refine ⟨step_waiting, inv_reset, fun n h => ?_⟩
  have := h n (Nat.le_refl n)
  rw [lockEnabled_waiting] at this
  cases this

/-- Where the lock is due, ENV's turn can come. -/
theorem witness_LockEventually : (pollingWith (.after 0) none).lockEnabled = true ∧
    (pollingWith (.after 0) none).turn = .env := by decide

/-- The waiting block, each command at the port, and the release: every case is taken somewhere. -/
theorem witness_OnlyTheUsbResetBitChangesAfterBringUp :
    (enabled.Inv ∧ enabled.phase = phPeripheralsEnabled ∧ ∃ t, step enabled = .next t) ∧
    (∀ c ∈ [0b00#2, 0b01#2, 0b10#2, 0b11#2], State.Inv { enabled with port := [c] } ∧
      ∃ t, step { enabled with port := [c] } = .next t) ∧
    State.Inv { enabled with busy := true, upc := 10 } ∧
    ∃ t, step { enabled with busy := true, upc := 10 } = .next t := by
  refine ⟨⟨inv_enabled, rfl, next_of_after (by decide)⟩, fun c hc => ⟨?_, next_of_after ?_⟩, ?_,
    next_of_after (by decide)⟩
  · have h := inv_enabled
    exact ⟨h.wf, h.idle, h.done, h.lockOff, h.place, h.fresh, h.configured, h.started, h.locked, h.timed,
      h.switched⟩
  · revert c; decide
  · constructor <;> decide

/-- The idle block with a REL_USB to issue, and the release itself. -/
theorem witness_WithoutInitNothingButTheUsbResetBitChanges :
    (State.Inv { State.reset with port := [0b11#2] } ∧ 0b00#2 ∉ [0b11#2] ∧
      ∃ t, step { State.reset with port := [0b11#2] } = .next t) ∧
    (busyAt 10 phReset).Inv ∧ (busyAt 10 phReset).upc = 10 ∧ ∃ t, step (busyAt 10 phReset) = .next t := by
  refine ⟨⟨?_, by decide, next_of_after (by decide)⟩, ?_, rfl, next_of_after (by decide)⟩
  · constructor <;> decide
  · constructor <;> decide

end Sys2Proof.Tests
end

section
/-! PROOFS. Which parameters are refused and what a refusing step leaves (00_scope.md R8, R15), and that under
well-formed parameters a step that nothing stops is taken (44_commands.md R200, R211). -/

namespace Sys2Proof.Machine

/-! ### Parameters outside the spec -/

/-- Every ill-formed parameter set is refused, with the first reason in the order of log entry 15. -/
theorem paramsRefusal_of_illFormed {p : Params} (h : p.wellFormed = false) :
    paramsRefusal p = some
      (if p.gateMap.whole = false then .splitGateCategory
       else if p.multiplierSupported = false then .unsupportedMultiplierSetting
       else .illFormedParameters) := by
  simp only [paramsRefusal, h, if_true]
  split_ifs <;> rfl

theorem State.fetch_command {s : State} {c : BitVec 2} {rest : List (BitVec 2)} (hb : s.busy = false)
    (hp : s.port = c :: rest) : s.fetch = .cmd c := by
  simp [State.fetch, hb, hp]

theorem State.fetch_waiting {s : State} (hb : s.busy = false) (hp : s.port = []) :
    s.fetch = .uop upcIdle := by
  simp [State.fetch, hb, hp]

/-- An idle block has the command at its port turned away. -/
theorem State.turnAway_command {s : State} {c : BitVec 2} {rest : List (BitVec 2)} (r : Refusal)
    (hb : s.busy = false) (hp : s.port = c :: rest) :
    s.turnAway r = { s with
      refused := true, reason := some r, trace := s.trace ++ [.cmd (decodeCmd c) false],
      port := rest, draws := s.draws + 1 } := by
  simp only [State.turnAway, State.fetch_command hb hp, State.advance_idle hb, hp]
  rfl

/-- A busy block carries nothing out and stays where it is. -/
theorem State.turnAway_busy {s : State} (r : Refusal) (hb : s.busy = true) :
    s.turnAway r = { s with refused := true, reason := some r, draws := s.draws + 1 } := by
  simp only [State.turnAway, State.fetch_busy hb, State.advance_busy hb, if_pos hb]
  rfl

/-- A block of which nothing is asked has nothing to turn away. -/
theorem State.turnAway_waiting {s : State} (r : Refusal) (hb : s.busy = false) (hp : s.port = []) :
    s.turnAway r = { s with draws := s.draws + 1 } := by
  have hn : ¬s.busy = true := by simp [hb]
  have ht : s.port.tail = s.port := by simp [hp]
  simp only [State.turnAway, State.fetch_waiting hb hp, State.advance_idle hb, if_neg hn, ht]
  rfl

/-! ### No outcome without a state -/

theorem State.selected_ne_refused {s : State} {u : BitVec 4} {x : Result} {r : Refusal}
    (h : x ≠ .refused r) : s.selected u x ≠ .refused r := by
  unfold State.selected
  split
  · exact h
  · simp

theorem State.whenIdle_ne_refused {s : State} {x : Result} {r : Refusal} (h : x ≠ .refused r) :
    s.whenIdle x ≠ .refused r := by
  unfold State.whenIdle
  split
  · exact h
  · simp

/-- No operation ends in the host's outcome `refused` (log entry 24). -/
theorem exec_ne_refused (i : Instr) (s : State) (r : Refusal) : exec i s ≠ .refused r := by
  have hnext : ∀ t : State, (.next t : Result) ≠ .refused r := fun _ => by simp
  have hfault : ∀ f : Fault, (.fault f : Result) ≠ .refused r := fun _ => by simp
  cases i with
  | init | getBus1 | getBus2 | relUsb => exact State.whenIdle_ne_refused (hnext _)
  | lockPoll =>
    refine State.selected_ne_refused ?_
    split
    · exact hfault _
    · exact hnext _
  | cfgInit | crFull | mtSet | cfgSwitch | gateGpio | gateSerial | gateAdc | gateTimer | gateUsb | usbRstRel =>
    exact State.selected_ne_refused (hnext _)
  | reserved11 | reserved12 | reserved13 | reserved14 => exact hfault _
  | uIdle => exact hnext _

theorem step_ne_refused (s : State) (r : Refusal) : step s ≠ .refused r := by
  unfold step
  split
  · simp
  · simp
  · simp
  · exact exec_ne_refused _ _ r

/-! ### The reason an operation can record -/

@[simp] theorem State.enableClocks_reason (s : State) (c : Category) : (s.enableClocks c).reason = s.reason :=
  State.readModifyWrite_reason ..

@[simp] theorem State.pollOnce_reason (s : State) : s.pollOnce.reason = s.reason := by
  unfold State.pollOnce
  dsimp only
  split <;> rfl

@[simp] theorem State.advance_reason (s : State) : s.advance.reason = s.reason := by
  unfold State.advance
  split <;> rfl

theorem State.gate_reason {s t : State} {c : Category} (h : s.gate c = .next t) : t.reason = s.reason := by
  obtain ⟨-, rfl⟩ := State.gate_next.mp h
  split <;> simp

/-- The only reason an operation records is that of a running multiplier
(93_implementation_defined.md U13). -/
theorem exec_reason {i : Instr} {s t : State} (h : exec i s = .next t) :
    t.reason = s.reason ∨ t.reason = some .multiplierChangeWhileEnabled := by
  cases i with
  | init =>
    obtain ⟨-, rfl⟩ := execInit_next.mp h
    left
    split <;> simp
  | getBus1 => obtain ⟨-, rfl⟩ := execGetBus1_next.mp h; simp
  | getBus2 => obtain ⟨-, rfl⟩ := execGetBus2_next.mp h; simp
  | relUsb => obtain ⟨-, rfl⟩ := execRelUsb_next.mp h; simp
  | cfgInit =>
    obtain ⟨-, rfl⟩ := execCfgInit_next.mp h
    split <;> simp
  | crFull => obtain ⟨-, rfl⟩ := execCrFull_next.mp h; simp
  | lockPoll => obtain ⟨-, -, rfl⟩ := execLockPoll_next.mp h; simp
  | mtSet => obtain ⟨-, rfl⟩ := execMtSet_next.mp h; simp
  | cfgSwitch =>
    obtain ⟨-, rfl⟩ := execCfgSwitch_next.mp h
    split <;> simp
  | gateGpio | gateSerial | gateAdc | gateTimer | gateUsb => exact .inl (State.gate_reason h)
  | usbRstRel => obtain ⟨-, rfl⟩ := execUsbRstRel_next.mp h; simp
  | reserved11 | reserved12 | reserved13 | reserved14 => cases h
  | uIdle => exact .inl (congrArg State.reason (next_eq_iff.mp h))

/-- Under well-formed parameters the same holds of a step. -/
theorem step_reason {s t : State} (wf : s.params.wellFormed = true) (h : step s = .next t) :
    t.reason = s.reason ∨ t.reason = some .multiplierChangeWhileEnabled := by
  obtain ⟨-, ⟨-, rfl⟩ | ⟨-, he⟩⟩ := step_next_of_wellFormed wf h
  · simp
  · simpa using exec_reason he

/-! ### Under well-formed parameters a step is taken -/

/-- An idle block carries out every command (44_commands.md R200). -/
theorem exec_command_enabled {s : State} (c : Command) (hb : s.busy = false) :
    ∃ t, exec c.instr s = .next t := by
  cases c with
  | init | getBus1 | getBus2 | relUsb => exact ⟨_, State.whenIdle_of _ hb⟩

/-- A busy block carries out the micro-operation of every code but the reserved ones, where the poll cap
does not stop it (40_clock_multiplier.md R147); at `U_IDLE` it waits (log entry 14). -/
theorem exec_uop_enabled {s : State} (ho : s.params.gateOrder.isPermutation = true) (hb : s.busy = true)
    (hu : s.upc.toNat ≤ 10 ∨ s.upc = upcIdle) (hc : s.capReached = false) :
    ∃ t, exec (decodeUop s.params.gateOrder s.upc) s = .next t := by
  have codes : s.upc = 0 ∨ s.upc = 1 ∨ s.upc = 2 ∨ s.upc = 3 ∨ s.upc = 4 ∨
      (5 ≤ s.upc.toNat ∧ s.upc.toNat ≤ 9) ∨ s.upc = 10 ∨ s.upc = upcIdle := by
    revert hu
    generalize s.upc = u
    revert u
    decide
  rcases codes with h | h | h | h | h | ⟨h5, h9⟩ | h | h
  · rw [h]; exact ⟨_, execCfgInit_next.mpr ⟨⟨hb, h⟩, rfl⟩⟩
  · rw [h]; exact ⟨_, execCrFull_next.mpr ⟨⟨hb, h⟩, rfl⟩⟩
  · rw [h]; exact ⟨_, execLockPoll_next.mpr ⟨⟨hb, h⟩, hc, rfl⟩⟩
  · rw [h]; exact ⟨_, execMtSet_next.mpr ⟨⟨hb, h⟩, rfl⟩⟩
  · rw [h]; exact ⟨_, execCfgSwitch_next.mpr ⟨⟨hb, h⟩, rfl⟩⟩
  · obtain ⟨c, hd, hg⟩ := decodeUop_gate ho h5 h9
    rw [hd, exec_gateInstr]
    exact ⟨_, State.gate_next.mpr ⟨⟨hb, hg.symm⟩, rfl⟩⟩
  · rw [h]; exact ⟨_, execUsbRstRel_next.mpr ⟨⟨hb, h⟩, rfl⟩⟩
  · rw [h]; exact ⟨s, rfl⟩

/-- What the block fetches it carries out. -/
theorem exec_fetched_enabled {s : State} (ho : s.params.gateOrder.isPermutation = true)
    (hu : s.busy = true → s.upc.toNat ≤ 10 ∨ s.upc = upcIdle) (hc : s.capReached = false) :
    ∃ t, exec (decode s.params.gateOrder s.fetch) s.advance = .next t := by
  cases hb : s.busy with
  | true =>
    rw [State.fetch_busy hb, State.advance_busy hb]
    exact exec_uop_enabled (s := s.tick) ho hb (hu hb) hc
  | false =>
    rw [State.advance_idle hb]
    cases hp : s.port with
    | nil =>
      rw [State.fetch_waiting hb hp]
      exact ⟨_, rfl⟩
    | cons c rest =>
      rw [State.fetch_command hb hp]
      exact exec_command_enabled (decodeCmd c) hb

/-- A step is taken from every state that neither a hazard, a reserved phase, the poll cap nor a reserved
`upc` stops. -/
theorem step_enabled {s : State} (wf : s.params.wellFormed = true) (hs : s.stopped = none)
    (hc : s.capReached = false) (hu : s.busy = true → s.upc.toNat ≤ 10 ∨ s.upc = upcIdle) :
    ∃ t, step s = .next t := by
  have hp := paramsRefusal_none wf
  cases he : s.envActs with
  | true => exact ⟨_, step_env hp hs he⟩
  | false =>
    rw [step_run hp hs he]
    exact exec_fetched_enabled (s.params.gateOrder_nodup wf) hu hc

/-- Settles O35: ill-formed parameters are turned away with their reason, well-formed ones take the step. -/
theorem onlyIllFormedParametersAreRefused : Obligations.OnlyIllFormedParametersAreRefused := by
  unfold Obligations.OnlyIllFormedParametersAreRefused
  intro s
  refine ⟨fun ill => ?_, fun wf hs hc hu => ?_, step_ne_refused s⟩
  · have away := step_turnAway (paramsRefusal_of_illFormed ill)
    exact ⟨fun c rest hb hp => away.trans (congrArg _ (State.turnAway_command _ hb hp)),
      fun hb => away.trans (congrArg _ (State.turnAway_busy _ hb)),
      fun hb hp => away.trans (congrArg _ (State.turnAway_waiting _ hb hp))⟩
  · obtain ⟨t, ht⟩ := step_enabled wf hs hc hu
    exact ⟨t, ht, step_reason wf ht⟩

end Sys2Proof.Machine
end

section
/-! PROOFS. What one operation does to the state, case by case: the one inversion the step invariants of
10_state.md are proved from. -/

namespace Sys2Proof.Machine

/-- What SEQ or HOST does in one operation that answers a next state, with what it found at its start. -/
inductive Effect (s : State) : State → Prop where
  | wait : Effect s s
  | refuse (r : Refusal) : Effect s (s.refuse r)
  | initAccepted (phase : s.phase = phReset) : Effect s ((s.record (.cmd .init true)).start 0)
  | initRefused : Effect s (s.record (.cmd .init false)).markRefused
  | respond (c : Command) (v : Word) : Effect s (s.respond c v)
  | relUsb (busy : s.busy = false) : Effect s ((s.record (.cmd .relUsb true)).start 10)
  | cfgInit (busy : s.busy = true) (upc : s.upc = 0) :
      Effect s ((s.busWrite32 .cfgr (cfgInitWord s.params)).goto 1)
  | crFull (busy : s.busy = true) (upc : s.upc = 1) :
      Effect s (((s.busWrite32 .cr (crWord s.params)).goto 2).enter phOscillatorsStarting)
  | pollUnlocked (busy : s.busy = true) (upc : s.upc = 2) :
      Effect s { s with
        t := s.cr, polls := s.polls + 1, upc := 2, trace := s.trace ++ [.rd .cr s.cr] }
  | pollLocked (busy : s.busy = true) (upc : s.upc = 2) (lock : s.params.layout.mulLock.get s.cr = 1) :
      Effect s { s with
        t := s.cr, polls := s.polls + 1, upc := 3, phase := phMultiplierLocked,
        trace := s.trace ++ [.rd .cr s.cr] }
  | mtSet (busy : s.busy = true) (upc : s.upc = 3) :
      Effect s (((s.busWrite32 .mtcr (mtWord s.params)).goto 4).enter phMemoryTimingSet)
  | cfgSwitch (busy : s.busy = true) (upc : s.upc = 4) :
      Effect s (((s.busWrite32 .cfgr (cfgSwitchWord s.params)).goto 5).enter phClockSwitched)
  | gate (c : Category) (busy : s.busy = true) (upc : s.upc = gateUpc s.params.gateOrder c)
      (more : s.upc ≠ 9) : Effect s ((s.enableClocks c).goto (s.upc + 1))
  | fifthGate (c : Category) (upc : s.upc = 9) : Effect s (s.enableClocks c).complete
  | usbRstRel (upc : s.upc = 10) :
      Effect s (s.readModifyWrite (usbRstTarget s.params) (· &&& ~~~usbRstMask s.params)).finish

theorem State.gate_effect {s t : State} {c : Category} (h : s.gate c = .next t) : Effect s t := by
  obtain ⟨⟨hb, hu⟩, rfl⟩ := State.gate_next.mp h
  split
  · exact .fifthGate c ‹_›
  · exact .gate c hb hu ‹_›

theorem execLockPoll_effect {s t : State} (h : execLockPoll s = .next t) : Effect s t := by
  obtain ⟨⟨hb, hu⟩, -, rfl⟩ := execLockPoll_next.mp h
  by_cases hl : s.params.layout.mulLock.get s.cr = 1
  · rw [State.pollOnce_locked hl]
    exact .pollLocked hb hu hl
  · rw [State.pollOnce_unlocked hl]
    exact .pollUnlocked hb hu

/-- Every operation that answers a next state has one of the effects. -/
theorem exec_effect {i : Instr} {s t : State} (h : exec i s = .next t) : Effect s t := by
  cases i with
  | init =>
    obtain ⟨-, rfl⟩ := execInit_next.mp h
    split
    · exact .initAccepted ‹_›
    · exact .initRefused
  | getBus1 => obtain ⟨-, rfl⟩ := execGetBus1_next.mp h; exact .respond ..
  | getBus2 => obtain ⟨-, rfl⟩ := execGetBus2_next.mp h; exact .respond ..
  | relUsb => obtain ⟨hb, rfl⟩ := execRelUsb_next.mp h; exact .relUsb hb
  | cfgInit =>
    obtain ⟨⟨hb, hu⟩, rfl⟩ := execCfgInit_next.mp h
    split
    · exact .refuse _
    · exact .cfgInit hb hu
  | crFull => obtain ⟨⟨hb, hu⟩, rfl⟩ := execCrFull_next.mp h; exact .crFull hb hu
  | lockPoll => exact execLockPoll_effect h
  | mtSet => obtain ⟨⟨hb, hu⟩, rfl⟩ := execMtSet_next.mp h; exact .mtSet hb hu
  | cfgSwitch =>
    obtain ⟨⟨hb, hu⟩, rfl⟩ := execCfgSwitch_next.mp h
    split
    · exact .refuse _
    · exact .cfgSwitch hb hu
  | gateGpio | gateSerial | gateAdc | gateTimer | gateUsb => exact State.gate_effect h
  | usbRstRel => obtain ⟨⟨-, hu⟩, rfl⟩ := execUsbRstRel_next.mp h; exact .usbRstRel hu
  | reserved11 | reserved12 | reserved13 | reserved14 => cases h
  | uIdle => cases h; exact .wait

theorem State.readModifyWrite_cr (s : State) {x : Reg} (f : Word → Word) (h : x ≠ .cr) :
    (s.readModifyWrite x f).cr = s.cr :=
  s.readModifyWrite_reg_ne (y := .cr) f h.symm

theorem State.readModifyWrite_cfgr (s : State) {x : Reg} (f : Word → Word) (h : x ≠ .cfgr) :
    (s.readModifyWrite x f).cfgr = s.cfgr :=
  s.readModifyWrite_reg_ne (y := .cfgr) f h.symm

theorem State.readModifyWrite_mtcr (s : State) {x : Reg} (f : Word → Word) (h : x ≠ .mtcr) :
    (s.readModifyWrite x f).mtcr = s.mtcr :=
  s.readModifyWrite_reg_ne (y := .mtcr) f h.symm

theorem penr_not_configuration (g : Fin 3) : penr g ≠ .cr ∧ penr g ≠ .cfgr ∧ penr g ≠ .mtcr := by
  revert g
  decide

theorem prstr_not_configuration (r : Fin 2) : prstr r ≠ .cr ∧ prstr r ≠ .cfgr ∧ prstr r ≠ .mtcr := by
  revert r
  decide

theorem State.advance_upc (s : State) : s.advance.upc = s.upc := by
  unfold State.advance
  split <;> rfl

theorem State.advance_phase (s : State) : s.advance.phase = s.phase := by
  unfold State.advance
  split <;> rfl

end Sys2Proof.Machine
end

section
/-! PROOFS. Every step keeps the state invariant (10_state.md R29, R40 to R42, 42_clock_switch.md R174), and
moves the phase at most one on (R41). -/

namespace Sys2Proof.Machine

/-! ### Reading the invariant at a place of the sequencer -/

/-- Where a value of `upc` allows one phase only, the machine is in that phase. -/
theorem State.Inv.phase_at {s : State} (h : s.Inv) {u : BitVec 4} {ph : BitVec 3} (hu : s.upc = u)
    (only : ∀ q, placeOk u q = true → q = ph) : s.phase = ph :=
  only _ (hu ▸ h.place)

/-- Before the completion `init_done` is 0. -/
theorem State.Inv.not_done {s : State} (h : s.Inv) (hp : s.phase ≠ phPeripheralsEnabled) :
    s.initDone = false :=
  Bool.eq_false_iff.mpr fun hd => hp (h.done.mp hd)

/-- `EnvLock` is enabled only while the oscillators start, with CR at its constant word. -/
theorem State.Inv.at_lockEnabled {s : State} (h : s.Inv) (he : s.lockEnabled = true) :
    s.phase = phOscillatorsStarting ∧ s.cr = crWord s.params := by
  obtain ⟨hen, hlk, -, -⟩ := State.lockEnabled_iff.mp he
  have notLocked : s.cr ≠ crLocked s.params := fun hc => by
    rw [hc, (crLocked_fields h.wf).2.1] at hlk
    exact absurd hlk (by decide)
  have notFresh : s.phase ≠ phReset := fun hp => by
    rw [(h.fresh hp).1] at hen
    exact absurd hen (by decide)
  have early : ¬2 ≤ s.phase.toNat := fun hp => notLocked (h.locked hp)
  have hp : s.phase = phOscillatorsStarting := by
    revert notFresh early
    generalize s.phase = ph
    revert ph
    decide
  exact ⟨hp, (h.started hp).resolve_right notLocked⟩

/-! ### States that meet the invariant -/

/-- What the invariant speaks of beside the place of the sequencer and the polls. -/
def State.bringUp (s : State) : Params × Word × Word × Word × BitVec 3 × Bool :=
  (s.params, s.cr, s.cfgr, s.mtcr, s.phase, s.initDone)

/-- The sequencer moves and the bring-up stays as it is. -/
theorem State.Inv.move {s t : State} (h : s.Inv) (same : t.bringUp = s.bringUp)
    (idle : t.busy = false ↔ t.upc = upcIdle) (place : placeOk t.upc s.phase = true)
    (one : t.upc = 1 → s.upc = 1) (polls : s.phase = phReset → t.polls = s.polls) : t.Inv := by
  cases s
  cases t
  simp only [State.bringUp, Prod.mk.injEq] at same
  obtain ⟨rfl, rfl, rfl, rfl, rfl, rfl⟩ := same
  exact {
    wf := h.wf
    idle := idle
    done := h.done
    lockOff := h.lockOff
    place := place
    fresh := fun hp => ⟨(h.fresh hp).1, (h.fresh hp).2.1, (polls hp).trans (h.fresh hp).2.2⟩
    configured := fun hc => h.configured (hc.imp_left one)
    started := h.started
    locked := h.locked
    timed := h.timed
    switched := h.switched }

/-- The sequencer stays where it is too. -/
theorem State.Inv.stay {s t : State} (h : s.Inv) (same : t.bringUp = s.bringUp) (upc : t.upc = s.upc)
    (busy : t.busy = s.busy) (polls : t.polls = s.polls) : t.Inv :=
  h.move same (by rw [busy, upc]; exact h.idle) (by rw [upc]; exact h.place) (by rw [upc]; exact id)
    fun _ => polls

/-- The state in which the lock is polled. -/
theorem State.Inv.of_started {t : State} (wf : t.params.wellFormed = true) (busy : t.busy = true)
    (upc : t.upc = 2) (done : t.initDone = false) (phase : t.phase = phOscillatorsStarting)
    (cr : t.cr = crWord t.params ∨ t.cr = crLocked t.params) (cfgr : t.cfgr = cfgInitWord t.params) :
    t.Inv where
  wf := wf
  idle := by simp [busy, upc]
  done := by simp [done, phase]
  lockOff hen := by
    rcases cr with hc | hc <;> rw [hc] at hen ⊢
    · exact (crWord_fields wf).2.2.2
    · rw [(crLocked_fields wf).1] at hen
      exact absurd hen (by decide)
  place := by rw [upc, phase]; decide
  fresh hp := by simp [phase] at hp
  configured _ := cfgr
  started _ := cr
  locked hp := by simp [phase] at hp
  timed hp := by simp [phase] at hp
  switched hp := by simp [phase] at hp

/-- A state after the lock has been seen. -/
theorem State.Inv.of_locked {t : State} (wf : t.params.wellFormed = true)
    (idle : t.busy = false ↔ t.upc = upcIdle) (done : t.initDone = true ↔ t.phase = phPeripheralsEnabled)
    (place : placeOk t.upc t.phase = true) (phase : 2 ≤ t.phase.toNat) (cr : t.cr = crLocked t.params)
    (configured : t.phase.toNat ≤ 3 → t.cfgr = cfgInitWord t.params)
    (timed : 3 ≤ t.phase.toNat → t.mtcr = mtWord t.params)
    (switched : 4 ≤ t.phase.toNat → t.cfgr = cfgSwitchWord t.params) : t.Inv where
  wf := wf
  idle := idle
  done := done
  lockOff hen := by
    rw [cr, (crLocked_fields wf).1] at hen
    exact absurd hen (by decide)
  place := place
  fresh hp := by simp [hp] at phase
  configured hc := by
    refine configured (hc.elim (fun hu => ?_) And.right)
    have hp : t.phase = phReset := (by decide : ∀ q, placeOk 1 q = true → q = phReset) _ (hu ▸ place)
    simp [hp] at phase
  started hp := by simp [hp] at phase
  locked _ := cr
  timed := timed
  switched := switched

/-! ### What surrounds an operation -/

theorem State.Inv.tick {s : State} (h : s.Inv) : s.tick.Inv := h.stay rfl rfl rfl rfl

theorem State.Inv.advance {s : State} (h : s.Inv) : s.advance.Inv := by
  unfold State.advance
  split
  · exact h.tick
  · exact h.stay rfl rfl rfl rfl

/-- ENV turns the constant word of CR into the locked one (10_state.md R27). -/
theorem State.Inv.envLock {s : State} (h : s.Inv) (he : s.lockEnabled = true) : s.envLock.Inv := by
  obtain ⟨hp, hc⟩ := h.at_lockEnabled he
  have hu : s.upc = 2 := by
    have place := h.place
    rw [hp] at place
    revert place
    generalize s.upc = u
    revert u
    decide
  have hb : s.busy = true := by
    have := h.idle.not.mpr (by rw [hu]; decide)
    simpa using this
  refine .of_started h.wf hb hu (h.not_done (by rw [hp]; decide)) hp (.inr ?_)
    (h.configured (.inr (by rw [hp]; decide)))
  rw [State.envLock_cr, hc]
  exact set_mulLock_crWord h.wf

/-- A read-modify-write of a gate or reset register keeps the invariant. -/
theorem State.Inv.readModifyWrite {s : State} (h : s.Inv) {x : Reg} (f : Word → Word)
    (hx : x ≠ .cr ∧ x ≠ .cfgr ∧ x ≠ .mtcr) : (s.readModifyWrite x f).Inv := by
  obtain ⟨hcr, hcfgr, hmtcr⟩ := hx
  refine h.stay ?_ (by simp) (by simp) (by simp)
  simp [State.bringUp, s.readModifyWrite_cr f hcr, s.readModifyWrite_cfgr f hcfgr,
    s.readModifyWrite_mtcr f hmtcr]

theorem State.Inv.enableClocks {s : State} (h : s.Inv) (c : Category) : (s.enableClocks c).Inv :=
  h.readModifyWrite _ (penr_not_configuration _)

theorem gateUpc_bounds (o : GateOrder) (c : Category) :
    5 ≤ (gateUpc o c).toNat ∧ (gateUpc o c).toNat ≤ 9 := by
  unfold gateUpc
  split_ifs <;> decide

/-! ### What each operation makes of a state that meets the invariant -/

theorem State.Inv.initAccepted {s : State} (h : s.Inv) (hp : s.phase = phReset) :
    ((s.record (.cmd .init true)).start 0).Inv :=
  h.move rfl (by simp) (by rw [hp]; rfl) (by simp) fun _ => rfl

theorem State.Inv.relUsb {s : State} (h : s.Inv) (hb : s.busy = false) :
    ((s.record (.cmd .relUsb true)).start 10).Inv := by
  have place : placeOk upcIdle s.phase = true := h.idle.mp hb ▸ h.place
  exact h.move rfl (by simp) place (by simp) fun _ => rfl

theorem State.Inv.cfgInit {s : State} (h : s.Inv) (hb : s.busy = true) (hu : s.upc = 0) :
    ((s.busWrite32 .cfgr (cfgInitWord s.params)).goto 1).Inv := by
  have hp : s.phase = phReset := h.phase_at hu (by decide)
  obtain ⟨hen, -, hpolls⟩ := h.fresh hp
  exact {
    wf := h.wf
    idle := by simp [hb]
    done := h.done
    lockOff := h.lockOff
    place := by simp [hp, placeOk]
    fresh := fun _ => ⟨hen, (cfgInitWord_fields h.wf).1, hpolls⟩
    configured := fun _ => rfl
    started := fun hq => by simp [hp] at hq
    locked := fun hq => by simp [hp] at hq
    timed := fun hq => by simp [hp] at hq
    switched := fun hq => by simp [hp] at hq }

theorem State.Inv.crFull {s : State} (h : s.Inv) (hb : s.busy = true) (hu : s.upc = 1) :
    (((s.busWrite32 .cr (crWord s.params)).goto 2).enter phOscillatorsStarting).Inv := by
  have hp : s.phase = phReset := h.phase_at hu (by decide)
  have unlocked := h.lockOff (h.fresh hp).1
  exact .of_started h.wf hb rfl (h.not_done (by rw [hp]; decide)) rfl
    (.inl (State.stored_crWord h.wf unlocked)) (h.configured (.inl hu))

theorem State.Inv.pollUnlocked {s : State} (h : s.Inv) (hb : s.busy = true) (hu : s.upc = 2) :
    State.Inv { s with t := s.cr, polls := s.polls + 1, upc := 2, trace := s.trace ++ [.rd .cr s.cr] } := by
  have hp : s.phase = phOscillatorsStarting := h.phase_at hu (by decide)
  exact .of_started h.wf hb rfl (h.not_done (by rw [hp]; decide)) hp (h.started hp)
    (h.configured (.inr (by rw [hp]; decide)))

/-- A poll that reads the lock as 1 has found the locked word. -/
theorem State.Inv.pollLocked {s : State} (h : s.Inv) (hb : s.busy = true) (hu : s.upc = 2)
    (hl : s.params.layout.mulLock.get s.cr = 1) :
    State.Inv { s with
      t := s.cr, polls := s.polls + 1, upc := 3, phase := phMultiplierLocked,
      trace := s.trace ++ [.rd .cr s.cr] } := by
  have hp : s.phase = phOscillatorsStarting := h.phase_at hu (by decide)
  have hd := h.not_done (by rw [hp]; decide)
  have hcr : s.cr = crLocked s.params := (h.started hp).resolve_left fun hc => by
    rw [hc, (crWord_fields h.wf).2.2.2] at hl
    exact absurd hl (by decide)
  exact .of_locked h.wf (by simp [hb]) (by simp [hd]) rfl (Nat.le_refl 2) hcr
    (fun _ => h.configured (.inr (by rw [hp]; decide))) (by simp) (by simp)

theorem State.Inv.mtSet {s : State} (h : s.Inv) (hb : s.busy = true) (hu : s.upc = 3) :
    (((s.busWrite32 .mtcr (mtWord s.params)).goto 4).enter phMemoryTimingSet).Inv := by
  have hp : s.phase = phMultiplierLocked := h.phase_at hu (by decide)
  have hd := h.not_done (by rw [hp]; decide)
  have hcr := h.locked (by rw [hp]; decide)
  have hcfgr := h.configured (.inr (by rw [hp]; decide))
  exact .of_locked (by simpa using h.wf) (by simp [hb]) (by simp [hd]) rfl (by simp) (by simpa using hcr)
    (by simpa using hcfgr) (by simp) (by simp)

theorem State.Inv.cfgSwitch {s : State} (h : s.Inv) (hb : s.busy = true) (hu : s.upc = 4) :
    (((s.busWrite32 .cfgr (cfgSwitchWord s.params)).goto 5).enter phClockSwitched).Inv := by
  have hp : s.phase = phMemoryTimingSet := h.phase_at hu (by decide)
  have hd := h.not_done (by rw [hp]; decide)
  exact .of_locked h.wf (by simp [hb]) (by simp [hd]) rfl (by simp) (h.locked (by rw [hp]; decide))
    (by simp) (fun _ => h.timed (by rw [hp]; decide)) (fun _ => rfl)

/-- The codes of the first four gates are followed by another gate's. -/
theorem placeOk_next_gate : ∀ u ph, 5 ≤ u.toNat ∧ u.toNat ≤ 9 → u ≠ 9 → placeOk u ph = true →
    placeOk (u + 1) ph = true ∧ u + 1 ≠ 1 ∧ u + 1 ≠ upcIdle := by decide

theorem State.Inv.gate {s : State} {c : Category} (h : s.Inv) (hb : s.busy = true)
    (hu : s.upc = gateUpc s.params.gateOrder c) (h9 : s.upc ≠ 9) :
    ((s.enableClocks c).goto (s.upc + 1)).Inv := by
  have hw := h.enableClocks c
  obtain ⟨place, one, idle⟩ := placeOk_next_gate _ _ (hu ▸ gateUpc_bounds ..) h9 h.place
  have hphase : (s.enableClocks c).phase = s.phase := by simp [State.enableClocks]
  have hbusy : (s.enableClocks c).busy = true := by simpa [State.enableClocks] using hb
  exact hw.move rfl (by simpa [hbusy] using idle) (by rwa [hphase]) (fun h1 => absurd h1 one) fun _ => rfl

/-- The completion of the bring-up at the code of the fifth gate (43_peripheral_gate.md R188). -/
theorem State.Inv.complete {s : State} (h : s.Inv) (hu : s.upc = 9) : s.complete.Inv := by
  have hp : s.phase = phClockSwitched := h.phase_at hu (by decide)
  exact .of_locked h.wf (by simp) (by simp) rfl (by simp) (h.locked (by rw [hp]; decide)) (by simp)
    (fun _ => h.timed (by rw [hp]; decide)) fun _ => h.switched (by rw [hp]; decide)

theorem State.Inv.finish {s : State} (h : s.Inv) (hu : s.upc = 10) : s.finish.Inv := by
  have place : placeOk 10 s.phase = true := hu ▸ h.place
  exact h.move rfl (by simp) place (by simp) fun _ => rfl

/-- Every operation keeps the state invariant. -/
theorem State.Inv.effect {s t : State} (h : s.Inv) (e : Effect s t) : t.Inv := by
  cases e with
  | wait => exact h
  | refuse | initRefused | respond => exact h.stay rfl rfl rfl rfl
  | initAccepted hp => exact h.initAccepted hp
  | relUsb hb => exact h.relUsb hb
  | cfgInit hb hu => exact h.cfgInit hb hu
  | crFull hb hu => exact h.crFull hb hu
  | pollUnlocked hb hu => exact h.pollUnlocked hb hu
  | pollLocked hb hu hl => exact h.pollLocked hb hu hl
  | mtSet hb hu => exact h.mtSet hb hu
  | cfgSwitch hb hu => exact h.cfgSwitch hb hu
  | gate c hb hu h9 => exact h.gate hb hu h9
  | fifthGate c hu => exact (h.enableClocks c).complete (by simpa [State.enableClocks] using hu)
  | usbRstRel hu =>
    exact (h.readModifyWrite _ (prstr_not_configuration s.params.usbRst.reg)).finish (by simpa using hu)

/-- Settles O42: ENV's step and every operation keep the invariant. -/
theorem everyStepKeepsTheStateInvariant : Obligations.EveryStepKeepsTheStateInvariant := by
  unfold Obligations.EveryStepKeepsTheStateInvariant
  intro s t h hstep
  obtain ⟨-, ⟨ha, rfl⟩ | ⟨-, he⟩⟩ := step_next_of_wellFormed h.wf hstep
  · exact (h.envLock (State.lockEnabled_of_envActs ha)).tick
  · exact h.advance.effect (exec_effect he)

/-! ### The phase -/

/-- The phase moves where the micro-program leaves the code the phase belongs to, and only to the next. -/
theorem State.Inv.effect_phase {s t : State} (h : s.Inv) (e : Effect s t) :
    t.phase.toNat = s.phase.toNat ∨ t.phase.toNat = s.phase.toNat + 1 := by
  cases e with
  | crFull _ hu => rw [h.phase_at hu (ph := phReset) (by decide)]; exact .inr rfl
  | pollLocked _ hu => rw [h.phase_at hu (ph := phOscillatorsStarting) (by decide)]; exact .inr rfl
  | mtSet _ hu => rw [h.phase_at hu (ph := phMultiplierLocked) (by decide)]; exact .inr rfl
  | cfgSwitch _ hu => rw [h.phase_at hu (ph := phMemoryTimingSet) (by decide)]; exact .inr rfl
  | fifthGate _ hu => rw [h.phase_at hu (ph := phClockSwitched) (by decide)]; exact .inr rfl
  | gate | usbRstRel => simp [State.enableClocks]
  | wait | refuse | initAccepted | initRefused | respond | relUsb | cfgInit | pollUnlocked => exact .inl rfl

/-- Settles O47: ENV leaves the phase alone, and an operation moves it at most one on. -/
theorem phaseMovesOnlyForward : Obligations.PhaseMovesOnlyForward := by
  unfold Obligations.PhaseMovesOnlyForward
  intro s t h hstep
  obtain ⟨-, ⟨-, rfl⟩ | ⟨-, he⟩⟩ := step_next_of_wellFormed h.wf hstep
  · exact .inl rfl
  · exact s.advance_phase ▸ h.advance.effect_phase (exec_effect he)

end Sys2Proof.Machine
end

section
/-! PROOFS. ENV (10_state.md R27, R28, R29), the refusal of a running multiplier's reconfiguration
(93_implementation_defined.md U13), and what no step takes back (10_state.md R43, R46, R49). -/

namespace Sys2Proof.Machine

/-! ### ENV and the lock -/

/-- Settles O31: the three settings of `LOCK_ORACLE` in the definition of ENV's turn. -/
theorem lockOracleResolvesEnv : Obligations.LockOracleResolvesEnv := by
  unfold Obligations.LockOracleResolvesEnv
  intro s hc
  refine ⟨fun n ho => ?_, fun ho => ?_, fun ho => ?_⟩ <;> simp [State.envActs, hc, ho]

/-- Settles O32: `EnvLock` is enabled, and setting the one-bit field changes no bit beside it. -/
theorem envStepSetsTheLock : Obligations.EnvStepSetsTheLock := by
  unfold Obligations.EnvStepSetsTheLock
  intro s wf hs ha
  obtain ⟨hen, hlk, hsrc, hxosc⟩ := State.lockEnabled_iff.mp (State.lockEnabled_of_envActs ha)
  have slot := (mulLock_slot wf).1
  exact ⟨hen, hlk, hxosc, hsrc, s.envLock.tick, step_env (paramsRefusal_none wf) hs ha, rfl,
    Slot.get_set_self slot _ Slot.holds_one, fun _ hi ho => Slot.set_getLsbD_of_not_covers slot _ _ hi ho⟩

/-- Settles O11: both writes of CFGR are guarded by the test for a running multiplier. -/
theorem runningMultiplierIsNotReconfigured : Obligations.RunningMultiplierIsNotReconfigured := by
  unfold Obligations.RunningMultiplierIsNotReconfigured
  intro s hb hen
  have changes : ∀ w, s.params.layout.mulSrc.get w ≠ s.params.layout.mulSrc.get s.cfgr ∨
      s.params.layout.mulFact.get w ≠ s.params.layout.mulFact.get s.cfgr →
      s.changesRunningMultiplier w = true := fun w hw => by
    simpa [State.changesRunningMultiplier, hen] using hw
  constructor
  · intro hu hw
    exact execCfgInit_next.mpr ⟨⟨hb, hu⟩, (if_pos (changes _ hw)).symm⟩
  · intro hu hw
    exact execCfgSwitch_next.mpr ⟨⟨hb, hu⟩, (if_pos (changes _ hw)).symm⟩

/-- A write of `CR_WORD` leaves a lock that is set (20_memory.md R77). -/
theorem State.stored_crWord_locked {s : State} (wf : s.params.wellFormed = true)
    (hl : s.params.layout.mulLock.get s.cr = 1) : s.stored .cr (crWord s.params) = crLocked s.params := by
  simp only [State.stored, if_pos (crWord_fields wf).2.2.1, hl, set_mulLock_crWord wf]

theorem State.enableClocks_cr (s : State) (c : Category) : (s.enableClocks c).cr = s.cr :=
  s.readModifyWrite_cr _ (gateTarget_ne_cr s.params c)

/-- The only write of CR is that of `CR_WORD` (20_memory.md R81). -/
theorem Effect.cr {s t : State} (e : Effect s t) : t.cr = s.cr ∨ t.cr = s.stored .cr (crWord s.params) := by
  cases e with
  | crFull => exact .inr rfl
  | gate | fifthGate => exact .inl (by simp [State.enableClocks_cr])
  | usbRstRel => exact .inl (by simp [State.readModifyWrite_cr, usbRstTarget_ne_cr])
  | wait | refuse | initAccepted | initRefused | respond | relUsb | cfgInit | pollUnlocked | pollLocked
  | mtSet | cfgSwitch => exact .inl rfl

/-- Settles O36: ENV has nothing to do, and what an operation leaves in CR keeps both bits. -/
theorem lockIsSticky : Obligations.LockIsSticky := by
  unfold Obligations.LockIsSticky
  intro s t hen hlk hstep
  rcases step_next hstep with ⟨r, -, rfl⟩ | ⟨hp, -, ⟨ha, -⟩ | ⟨-, he⟩⟩
  · obtain ⟨hparams, hreg, -⟩ := s.turnAway_frame r
    have hcr : (s.turnAway r).cr = s.cr := hreg .cr
    rw [hcr]
    exact ⟨hen, hlk⟩
  · obtain ⟨-, unlocked, -, -⟩ := State.lockEnabled_iff.mp (State.lockEnabled_of_envActs ha)
    rw [hlk] at unlocked
    exact absurd unlocked (by decide)
  · have wf := wellFormed_of_not_refused hp
    have hcr : s.advance.cr = s.cr := s.advance_reg .cr
    rcases (exec_effect he).cr with h | h
    · rw [h, hcr]
      exact ⟨hen, hlk⟩
    · rw [State.stored_crWord_locked (by simpa using wf) (by simpa [hcr] using hlk), State.advance_params] at h
      obtain ⟨hen', hlk', -⟩ := crLocked_fields wf
      rw [h]
      exact ⟨hen', hlk'⟩

/-! ### What no step takes back -/

/-- `t` has the parameters of `s` and all it recorded. -/
structure State.KeepsRecords (s t : State) : Prop where
  params : t.params = s.params
  refused : s.refused = true → t.refused = true
  polls : s.polls ≤ t.polls
  trace : s.trace <+: t.trace

theorem Effect.keepsRecords {s t : State} (e : Effect s t) : s.KeepsRecords t := by
  cases e with
  | gate | fifthGate => constructor <;> simp [State.enableClocks]
  | wait | refuse | initAccepted | initRefused | respond | relUsb | cfgInit | crFull | pollUnlocked
  | pollLocked | mtSet | cfgSwitch | usbRstRel => constructor <;> simp

theorem step_keepsRecords {s t : State} (h : step s = .next t) : s.KeepsRecords t := by
  rcases step_next h with ⟨r, -, rfl⟩ | ⟨-, -, ⟨-, rfl⟩ | ⟨-, he⟩⟩
  · obtain ⟨hparams, -, -, -, -, hpolls, hrefused, es, htrace⟩ := s.turnAway_frame r
    exact ⟨hparams, hrefused, hpolls.ge, es, htrace.symm⟩
  · constructor <;> simp
  · obtain ⟨hparams, hrefused, hpolls, htrace⟩ := (exec_effect he).keepsRecords
    simp only [State.advance_params, State.advance_refused, State.advance_polls, State.advance_trace]
      at hparams hrefused hpolls htrace
    exact ⟨hparams, hrefused, hpolls, htrace⟩

/-- Settles O37: turning away, ENV's step and every operation keep the records. -/
theorem recordsAreNeverTakenBack : Obligations.RecordsAreNeverTakenBack := by
  unfold Obligations.RecordsAreNeverTakenBack
  intro s t hstep
  obtain ⟨hparams, hrefused, hpolls, es, htrace⟩ := step_keepsRecords hstep
  exact ⟨hparams, hrefused, hpolls, es, htrace.symm⟩

end Sys2Proof.Machine
end

section
/-! PROOFS. The latch `T` before a step is never read (10_state.md R44): two steps that start from states
that differ in `T` alone end alike. -/

namespace Sys2Proof.Machine

/-- The state with another content of the latch. -/
def State.withT (s : State) (v : Word) : State := { s with t := v }

/-- The outcome with the latch of its next state blotted out. -/
def forgetT : Result → Result
  | .next s => .next (s.withT 0)
  | .fault f => .fault f
  | .refused r => .refused r

/-- What an outcome with the same rest as a next state is. -/
theorem next_of_forgetT {r : Result} {t : State} (h : forgetT r = forgetT (.next t)) :
    ∃ w, r = .next (t.withT w) := by
  cases r with
  | next a =>
    have ha : t.withT 0 = a.withT 0 := next_eq_iff.mp h
    refine ⟨a.t, congrArg _ ?_⟩
    calc a = (a.withT 0).withT a.t := rfl
      _ = (t.withT 0).withT a.t := by rw [ha]
      _ = t.withT a.t := rfl
  | fault => simp [forgetT] at h
  | refused => simp [forgetT] at h

theorem fault_of_forgetT {r : Result} {f : Fault} (h : forgetT r = forgetT (.fault f)) : r = .fault f := by
  cases r with
  | fault => exact h
  | next | refused => simp [forgetT] at h

/-! ### The shared operations -/

theorem State.loadT_withT (s : State) (v : Word) (x : Reg) : (s.withT v).loadT x = s.loadT x := by
  cases x <;> rfl

/-- A read-modify-write overwrites the latch before it uses it. -/
theorem State.readModifyWrite_withT (s : State) (v : Word) (x : Reg) (f : Word → Word) :
    (s.withT v).readModifyWrite x f = s.readModifyWrite x f := by
  simp only [State.readModifyWrite, State.loadT_withT]

theorem State.enableClocks_withT (s : State) (v : Word) (c : Category) :
    (s.withT v).enableClocks c = s.enableClocks c :=
  s.readModifyWrite_withT ..

theorem State.pollOnce_withT (s : State) (v : Word) : (s.withT v).pollOnce = s.pollOnce := by
  simp only [State.pollOnce, State.loadT_withT]
  rfl

theorem State.advance_withT (s : State) (v : Word) : (s.withT v).advance = s.advance.withT v := by
  cases hb : s.busy with
  | true => rw [State.advance_busy hb, State.advance_busy (s := s.withT v) hb]; rfl
  | false => rw [State.advance_idle hb, State.advance_idle (s := s.withT v) hb]; rfl

theorem State.turn_withT (s : State) (v : Word) : (s.withT v).turn = s.turn := rfl

theorem State.turnAway_withT (s : State) (v : Word) (r : Refusal) :
    (s.withT v).turnAway r = (s.turnAway r).withT v := by
  cases hb : s.busy with
  | true => rw [State.turnAway_busy r hb, State.turnAway_busy (s := s.withT v) r hb]; rfl
  | false =>
    cases hp : s.port with
    | nil => rw [State.turnAway_waiting r hb hp, State.turnAway_waiting (s := s.withT v) r hb hp]; rfl
    | cons c rest =>
      rw [State.turnAway_command r hb hp, State.turnAway_command (s := s.withT v) r hb hp]
      rfl

/-! ### The operations and the step -/

theorem forgetT_selected_withT {s : State} {v : Word} {u : BitVec 4} {a b : Result}
    (h : forgetT a = forgetT b) : forgetT ((s.withT v).selected u a) = forgetT (s.selected u b) := by
  have e : (s.withT v).selected u a = s.selected u a := rfl
  rw [e]
  unfold State.selected
  split
  · exact h
  · rfl

theorem forgetT_whenIdle_withT {s : State} {v : Word} {a b : Result} (h : forgetT a = forgetT b) :
    forgetT ((s.withT v).whenIdle a) = forgetT (s.whenIdle b) := by
  have e : (s.withT v).whenIdle a = s.whenIdle a := rfl
  rw [e]
  unfold State.whenIdle
  split
  · exact h
  · rfl

theorem forgetT_next_ite {c : Prop} [Decidable c] {a a' b b' : State}
    (ha : forgetT (.next a) = forgetT (.next a')) (hb : forgetT (.next b) = forgetT (.next b')) :
    forgetT (.next (if c then a else b)) = forgetT (.next (if c then a' else b')) := by
  split
  · exact ha
  · exact hb

theorem State.gate_withT (s : State) (v : Word) (c : Category) : (s.withT v).gate c = s.gate c := by
  simp only [State.gate, State.enableClocks_withT]
  rfl

/-- No operation reads the latch it found. -/
theorem forgetT_exec_withT (i : Instr) (s : State) (v : Word) :
    forgetT (exec i (s.withT v)) = forgetT (exec i s) := by
  cases i with
  | init => exact forgetT_whenIdle_withT (forgetT_next_ite rfl rfl)
  | getBus1 | getBus2 | relUsb => exact forgetT_whenIdle_withT rfl
  | cfgInit | cfgSwitch => exact forgetT_selected_withT (forgetT_next_ite rfl rfl)
  | crFull | mtSet => exact forgetT_selected_withT rfl
  | lockPoll =>
    simp only [exec, execLockPoll, State.pollOnce_withT]
    rfl
  | gateGpio | gateSerial | gateAdc | gateTimer | gateUsb =>
    exact congrArg forgetT (s.gate_withT v _)
  | usbRstRel =>
    simp only [exec, execUsbRstRel, State.readModifyWrite_withT]
    rfl
  | reserved11 | reserved12 | reserved13 | reserved14 | uIdle => rfl

theorem forgetT_step_withT (s : State) (v : Word) : forgetT (step (s.withT v)) = forgetT (step s) := by
  unfold step
  rw [State.turn_withT]
  cases s.turn with
  | refuse r =>
    calc forgetT (.next ((s.withT v).turnAway r)) = forgetT (.next ((s.turnAway r).withT v)) := by
          rw [State.turnAway_withT]
      _ = forgetT (.next (s.turnAway r)) := rfl
  | stop | env => rfl
  | run i =>
    calc forgetT (exec i (s.withT v).advance) = forgetT (exec i (s.advance.withT v)) := by
          rw [State.advance_withT]
      _ = forgetT (exec i s.advance) := forgetT_exec_withT i s.advance v

/-- Settles O38: the outcomes agree but for the latch, and none is the host's `refused`. -/
theorem latchBeforeAStepIsNeverRead : Obligations.LatchBeforeAStepIsNeverRead := by
  unfold Obligations.LatchBeforeAStepIsNeverRead
  intro s v
  have same := forgetT_step_withT s v
  refine ⟨fun t ht => ?_, fun f hf => ?_, step_ne_refused s⟩
  · exact next_of_forgetT (ht ▸ same)
  · exact fault_of_forgetT (hf ▸ same)

end Sys2Proof.Machine
end

section
/-! PROOFS. Every step keeps the trace invariant (20_memory.md R81, 41_memory_timing.md R162,
42_clock_switch.md R175, 10_state.md R46): most events do not concern it, and those of the bring-up come one
at a time, in the order of the phases. -/

namespace Sys2Proof.Machine

/-! ### Steps that record nothing -/

/-- The trace stays as it is, and the place of the sequencer asks nothing new of it: `upc` stays or is one
after the switch, the phase stays or the switch has been made before. -/
theorem State.TraceInv.quiet {s t : State} (h : s.TraceInv) (trace : t.trace = s.trace)
    (params : t.params = s.params) (polls : t.polls = s.polls)
    (upc : t.upc = s.upc ∨ 5 ≤ t.upc.toNat)
    (phase : t.phase = s.phase ∨ 4 ≤ s.phase.toNat ∧ 4 ≤ t.phase.toNat) : t.TraceInv where
  noEarlyGate := by rw [params, trace]; exact h.noEarlyGate
  noCrRmw := by rw [trace]; exact h.noCrRmw
  begun h4 := by
    rw [params, trace]
    exact h.begun ((upc.resolve_right (by omega)) ▸ h4)
  mark h4 := by
    rw [params, trace]
    exact h.mark (phase.elim (fun hp => hp ▸ h4) And.left)
  beforeCr h1 := by
    rw [params, trace]
    exact h.beforeCr ((upc.resolve_right (by rw [h1]; decide)) ▸ h1)
  crFull := by rw [params, trace]; exact h.crFull
  order := by
    rw [params, trace, h.order]
    rcases phase with hp | ⟨hs, ht⟩
    · rw [hp]
    · have all : ∀ n, 4 ≤ n → (orderMarks s.params).take (n - 1) = orderMarks s.params := fun n hn =>
        List.take_of_length_le (by simp only [orderMarks, List.length_cons, List.length_nil]; omega)
      rw [all _ hs, all _ ht]
  polls := by rw [polls, trace]; exact h.polls

theorem State.TraceInv.tick {s : State} (h : s.TraceInv) : s.tick.TraceInv :=
  h.quiet rfl rfl rfl (.inl rfl) (.inl rfl)

theorem State.TraceInv.advance {s : State} (h : s.TraceInv) : s.advance.TraceInv :=
  h.quiet (by simp) (by simp) (by simp) (.inl s.advance_upc) (.inl s.advance_phase)

/-! ### Events that do not concern the bring-up -/

/-- CR, CFGR and MTCR, the registers whose accesses the trace invariant looks at. -/
def Reg.isConfiguration : Reg → Bool
  | .cr | .cfgr | .mtcr => true
  | _ => false

/-- The events other than the start of an INIT and the accesses to the configuration registers. -/
def Event.isPlain : Event → Bool
  | .cmd c accepted => !(c == .init && accepted)
  | .rd x _ | .wr x _ => !x.isConfiguration
  | .lock | .resp _ => true

/-- A plain event is neither a poll, nor a write of CR, nor an order mark, and moves no mark. -/
theorem Event.isPlain_elim {e : Event} (h : e.isPlain = true) (p : Params) (m : SwitchMark) :
    isReadCr e = false ∧ isWriteCr e = false ∧ isOrderMark p e = false ∧ m.next p e = m := by
  cases e with
  | cmd c accepted =>
    refine ⟨rfl, rfl, rfl, ?_⟩
    cases accepted with
    | false => cases c <;> rfl
    | true =>
      cases c with
      | init => exact absurd h (by decide)
      | getBus1 | getBus2 | relUsb => rfl
  | rd x v | wr x v =>
    cases x with
    | cr | cfgr | mtcr => exact absurd h Bool.false_ne_true
    | penr0 | penr1 | penr2 | prstr0 | prstr1 => exact ⟨rfl, rfl, rfl, rfl⟩
  | lock | resp => exact ⟨rfl, rfl, rfl, rfl⟩

/-- Recording a plain event. An enable write has to come after the switch (70_reset_and_hazards.md R273),
and nothing comes between the first write of CFGR and the write of CR (R274 (c)). -/
theorem State.TraceInv.record {s : State} (h : s.TraceInv) {e : Event} (plain : e.isPlain = true)
    (hu : s.upc ≠ 1) (gated : ∀ x v, e = .wr x v → isPenr x = true → 4 ≤ s.phase.toNat) :
    (s.record e).TraceInv := by
  obtain ⟨readCr, writeCr, order, next⟩ :=
    Event.isPlain_elim plain s.params (switchMarkFrom s.params .noInit s.trace)
  have early : (switchMarkFrom s.params .noInit s.trace).early e = false := by
    cases e with
    | wr x v =>
      cases hx : isPenr x with
      | false => simp [SwitchMark.early, hx]
      | true => simp [SwitchMark.early, h.mark (gated x v rfl hx)]
    | cmd | rd | lock | resp => rfl
  exact h.append e rfl rfl (by simp [readCr]) (fun v hv => by simp [hv, isWriteCr] at writeCr)
    (fun hw => by simp [hw] at writeCr) early (fun h4 => next.trans (h.begun h4))
    (fun h4 => next.trans (h.mark h4)) (fun h1 => absurd h1 hu) (by simp [order])

/-- Recording a command, other than the acceptance of an INIT (44_commands.md R200, R202). -/
theorem State.TraceInv.recordCommand {s : State} (h : s.TraceInv) {c : Command} {accepted : Bool}
    (hc : (Event.cmd c accepted).isPlain = true) (hu : s.upc ≠ 1) :
    (s.record (.cmd c accepted)).TraceInv :=
  h.record hc hu (by simp)

theorem State.TraceInv.respond {s : State} (h : s.TraceInv) {c : Command} (v : Word)
    (hc : (Event.cmd c true).isPlain = true) (hu : s.upc ≠ 1) : (s.respond c v).TraceInv :=
  ((h.recordCommand hc hu).record (e := .resp v) rfl hu (by simp)).quiet rfl rfl rfl (.inl rfl) (.inl rfl)

/-- A read-modify-write of a gate or reset register records its read and its write. -/
theorem State.TraceInv.readModifyWrite {s : State} (h : s.TraceInv) {x : Reg} (f : Word → Word)
    (hx : x.isConfiguration = false) (hu : s.upc ≠ 1)
    (gated : isPenr x = true → 4 ≤ s.phase.toNat) : (s.readModifyWrite x f).TraceInv := by
  have read : (s.record (.rd x (s.reg x))).TraceInv := h.record (by simp [Event.isPlain, hx]) hu (by simp)
  have write := read.record (e := .wr x (f (s.reg x))) (by simp [Event.isPlain, hx]) hu
    (by rintro y v ⟨⟩; exact gated)
  exact write.quiet (by simp) (by simp) (by simp) (.inl (by simp)) (.inl (by simp))

theorem penr_isConfiguration (g : Fin 3) : (penr g).isConfiguration = false := by
  revert g
  decide

theorem prstr_isConfiguration (r : Fin 2) : (prstr r).isConfiguration = false := by
  revert r
  decide

theorem prstr_not_isPenr (r : Fin 2) : isPenr (prstr r) = false := by
  revert r
  decide

/-! ### The events of the bring-up -/

/-- The two CFGR words select different system clocks. -/
theorem cfgInitWord_sysSrc_ne {p : Params} (wf : p.wellFormed = true) :
    p.layout.sysSrc.get (cfgInitWord p) ≠ p.enc.sysSrcMul := by
  rw [(cfgInitWord_fields wf).1]
  exact p.sysSrc_codes wf

theorem cfgInitWord_ne_cfgSwitchWord {p : Params} (wf : p.wellFormed = true) :
    cfgInitWord p ≠ cfgSwitchWord p := fun e =>
  cfgInitWord_sysSrc_ne wf (e ▸ (cfgSwitchWord_fields wf).1)

/-- An accepted INIT sets the mark back to before its switch. -/
theorem State.TraceInv.afterInitAccepted {s : State} (h : s.TraceInv) (hp : s.phase = phReset) :
    ((s.record (.cmd .init true)).start 0).TraceInv :=
  h.append (.cmd .init true) rfl rfl rfl (by simp) (by simp [isWriteCr]) rfl (fun _ => rfl)
    (by simp [hp]) (by simp) (by simp [isOrderMark])

theorem State.TraceInv.afterCfgInit {s : State} (h : s.TraceInv) (hi : s.Inv) (hu : s.upc = 0) :
    ((s.busWrite32 .cfgr (cfgInitWord s.params)).goto 1).TraceInv := by
  have hp : s.phase = phReset := hi.phase_at hu (by decide)
  have before := h.begun (by rw [hu]; decide)
  have noSwitch := cfgInitWord_ne_cfgSwitchWord hi.wf
  have noMark := cfgInitWord_sysSrc_ne hi.wf
  exact h.append (.wr .cfgr (cfgInitWord s.params)) rfl rfl rfl (by simp) (by simp [isWriteCr]) rfl
    (fun _ => by simp [SwitchMark.next, before, noSwitch]) (by simp [hp]) (fun _ => rfl)
    (by simp [isOrderMark, noMark])

/-- The write of the constant to CR comes straight after the write of CFGR. -/
theorem State.TraceInv.afterCrFull {s : State} (h : s.TraceInv) (hi : s.Inv) (hu : s.upc = 1) :
    (((s.busWrite32 .cr (crWord s.params)).goto 2).enter phOscillatorsStarting).TraceInv := by
  have hp : s.phase = phReset := hi.phase_at hu (by decide)
  have before := h.begun (by rw [hu]; decide)
  exact h.append (.wr .cr (crWord s.params)) rfl rfl rfl (by simp) (fun _ => hu) rfl (fun _ => before)
    (by simp) (by simp) (by simp [isOrderMark, hp])

theorem State.TraceInv.afterPollUnlocked {s : State} (h : s.TraceInv) (hi : s.Inv) (hu : s.upc = 2)
    (hl : s.params.layout.mulLock.get s.cr ≠ 1) :
    State.TraceInv { s with
      t := s.cr, polls := s.polls + 1, upc := 2, trace := s.trace ++ [.rd .cr s.cr] } := by
  have hp : s.phase = phOscillatorsStarting := hi.phase_at hu (by decide)
  have before := h.begun (by rw [hu]; decide)
  exact h.append (.rd .cr s.cr) rfl rfl rfl (by simp) (by simp [isWriteCr]) rfl (fun _ => before)
    (by simp [hp]) (by simp) (by simpa [isOrderMark, lockBit] using hl)

/-- The poll that sees the lock is the first of the order marks. -/
theorem State.TraceInv.afterPollLocked {s : State} (h : s.TraceInv) (hi : s.Inv) (hb : s.busy = true)
    (hu : s.upc = 2) (hl : s.params.layout.mulLock.get s.cr = 1) :
    State.TraceInv { s with
      t := s.cr, polls := s.polls + 1, upc := 3, phase := phMultiplierLocked,
      trace := s.trace ++ [.rd .cr s.cr] } := by
  have hp : s.phase = phOscillatorsStarting := hi.phase_at hu (by decide)
  have before := h.begun (by rw [hu]; decide)
  have hcr : s.cr = crLocked s.params := (hi.pollLocked hb hu hl).locked (Nat.le_refl 2)
  exact h.append (.rd .cr s.cr) rfl rfl rfl (by simp) (by simp [isWriteCr]) rfl (fun _ => before)
    (by simp) (by simp) (by simpa [isOrderMark, lockBit, hl, hp, orderMarks] using hcr.symm)

theorem State.TraceInv.afterMtSet {s : State} (h : s.TraceInv) (hi : s.Inv) (hu : s.upc = 3) :
    (((s.busWrite32 .mtcr (mtWord s.params)).goto 4).enter phMemoryTimingSet).TraceInv := by
  have hp : s.phase = phMultiplierLocked := hi.phase_at hu (by decide)
  have before := h.begun (by rw [hu]; decide)
  exact h.append (.wr .mtcr (mtWord s.params)) rfl rfl rfl (by simp) (by simp [isWriteCr]) rfl
    (fun _ => before) (by simp) (by simp) (by simp [isOrderMark, hp, orderMarks])

/-- The switch is the last of the order marks, and moves the mark to after the switch. -/
theorem State.TraceInv.afterCfgSwitch {s : State} (h : s.TraceInv) (hi : s.Inv) (hu : s.upc = 4) :
    (((s.busWrite32 .cfgr (cfgSwitchWord s.params)).goto 5).enter phClockSwitched).TraceInv := by
  have hp : s.phase = phMemoryTimingSet := hi.phase_at hu (by decide)
  have before := h.begun (by rw [hu]; decide)
  have source := (cfgSwitchWord_fields hi.wf).1
  exact h.append (.wr .cfgr (cfgSwitchWord s.params)) rfl rfl rfl (by simp) (by simp [isWriteCr]) rfl
    (by simp) (fun _ => by simp [SwitchMark.next, before]) (by simp)
    (by simp [isOrderMark, source, hp, orderMarks])

/-! ### The operations after the switch -/

/-- The gates stand after the switch. -/
theorem placeOk_gate : ∀ u ph, 5 ≤ u.toNat ∧ u.toNat ≤ 9 → placeOk u ph = true →
    ph = phClockSwitched ∧ u ≠ 1 ∧ (u ≠ 9 → 5 ≤ (u + 1).toNat) := by decide

theorem State.TraceInv.afterGate {s t : State} (h : s.TraceInv) (hi : s.Inv) {c : Category}
    (hg : s.gate c = .next t) : t.TraceInv := by
  obtain ⟨⟨-, hu⟩, rfl⟩ := State.gate_next.mp hg
  obtain ⟨hp, one, more⟩ := placeOk_gate s.upc s.phase (hu ▸ gateUpc_bounds ..) hi.place
  have clocks : (s.enableClocks c).TraceInv :=
    h.readModifyWrite _ (penr_isConfiguration _) one fun _ => by rw [hp]; decide
  have phase : (s.enableClocks c).phase = phClockSwitched := by simp [State.enableClocks, hp]
  split
  · exact clocks.quiet rfl rfl rfl (.inr (by simp)) (.inr (by simp [phase]))
  · exact clocks.quiet rfl rfl rfl (.inr (more ‹_›)) (.inl rfl)

theorem State.TraceInv.afterUsbRstRel {s : State} (h : s.TraceInv) (hu : s.upc = 10) :
    (s.readModifyWrite (usbRstTarget s.params) (· &&& ~~~usbRstMask s.params)).finish.TraceInv := by
  have notGate : isPenr (usbRstTarget s.params) = false := prstr_not_isPenr _
  have release := h.readModifyWrite (· &&& ~~~usbRstMask s.params) (prstr_isConfiguration _)
    (x := usbRstTarget s.params) (by rw [hu]; decide) (by simp [notGate])
  exact release.quiet rfl rfl rfl (.inr (by simp)) (.inl rfl)

/-! ### Every step -/

theorem State.Inv.upc_ne_one {s : State} (h : s.Inv) (hb : s.busy = false) : s.upc ≠ 1 := by
  rw [h.idle.mp hb]
  decide

/-- ENV locks at the poll only. -/
theorem State.TraceInv.envLock {s : State} (h : s.TraceInv) (hi : s.Inv) (he : s.lockEnabled = true) :
    s.envLock.TraceInv := by
  have hu : s.upc ≠ 1 := fun hu => by
    have hp : s.phase = phReset := hi.phase_at hu (by decide)
    rw [(hi.at_lockEnabled he).1] at hp
    exact absurd hp (by decide)
  exact (h.record (e := .lock) rfl hu (by simp)).quiet rfl rfl rfl (.inl rfl) (.inl rfl)

theorem State.TraceInv.afterLockPoll {s t : State} (h : s.TraceInv) (hi : s.Inv)
    (he : execLockPoll s = .next t) : t.TraceInv := by
  obtain ⟨⟨hb, hu⟩, -, rfl⟩ := execLockPoll_next.mp he
  by_cases hl : s.params.layout.mulLock.get s.cr = 1
  · rw [State.pollOnce_locked hl]
    exact h.afterPollLocked hi hb hu hl
  · rw [State.pollOnce_unlocked hl]
    exact h.afterPollUnlocked hi hu hl

theorem State.TraceInv.afterInit {s t : State} (h : s.TraceInv) (hi : s.Inv) (he : execInit s = .next t) :
    t.TraceInv := by
  obtain ⟨hb, rfl⟩ := execInit_next.mp he
  split
  · exact h.afterInitAccepted ‹_›
  · exact (h.recordCommand (c := .init) rfl (hi.upc_ne_one hb)).quiet rfl rfl rfl (.inl rfl) (.inl rfl)

/-- Every operation keeps the trace invariant. -/
theorem State.TraceInv.exec {i : Instr} {s t : State} (h : s.TraceInv) (hi : s.Inv)
    (he : exec i s = .next t) : t.TraceInv := by
  cases i with
  | init => exact h.afterInit hi he
  | getBus1 =>
    obtain ⟨hb, rfl⟩ := execGetBus1_next.mp he
    exact h.respond _ rfl (hi.upc_ne_one hb)
  | getBus2 =>
    obtain ⟨hb, rfl⟩ := execGetBus2_next.mp he
    exact h.respond _ rfl (hi.upc_ne_one hb)
  | relUsb =>
    obtain ⟨hb, rfl⟩ := execRelUsb_next.mp he
    exact (h.recordCommand rfl (hi.upc_ne_one hb)).quiet rfl rfl rfl (.inr (by simp)) (.inl rfl)
  | cfgInit => obtain ⟨⟨-, hu⟩, rfl⟩ := hi.execCfgInit_next.mp he; exact h.afterCfgInit hi hu
  | crFull => obtain ⟨⟨-, hu⟩, rfl⟩ := execCrFull_next.mp he; exact h.afterCrFull hi hu
  | lockPoll => exact h.afterLockPoll hi he
  | mtSet => obtain ⟨⟨-, hu⟩, rfl⟩ := execMtSet_next.mp he; exact h.afterMtSet hi hu
  | cfgSwitch => obtain ⟨⟨-, hu⟩, rfl⟩ := hi.execCfgSwitch_next.mp he; exact h.afterCfgSwitch hi hu
  | gateGpio | gateSerial | gateAdc | gateTimer | gateUsb => exact h.afterGate hi he
  | usbRstRel => obtain ⟨⟨-, hu⟩, rfl⟩ := execUsbRstRel_next.mp he; exact h.afterUsbRstRel hu
  | reserved11 | reserved12 | reserved13 | reserved14 => cases he
  | uIdle => cases he; exact h

/-- Settles O43: ENV's step and every operation keep the trace invariant. -/
theorem everyStepKeepsTheTraceInvariant : Obligations.EveryStepKeepsTheTraceInvariant := by
  unfold Obligations.EveryStepKeepsTheTraceInvariant
  intro s t hi h hstep
  obtain ⟨-, ⟨ha, rfl⟩ | ⟨-, he⟩⟩ := step_next_of_wellFormed hi.wf hstep
  · exact (h.envLock hi (State.lockEnabled_of_envActs ha)).tick
  · exact h.advance.exec hi.advance he

end Sys2Proof.Machine
end

section
/-! PROOFS. The register bus (20_memory.md R71 to R85): what a write stores, raw addresses, the frame of every
operation, and that `EnvLock` commutes with the writes that keep the multiplier on. -/

namespace Sys2Proof.Machine

/-! ### What a write stores -/

/-- Everything a write does (20_memory.md R77). -/
theorem State.busWrite32_eq (s : State) (x : Reg) (v : Word) :
    s.busWrite32 x v = { s.setReg x (s.stored x v) with trace := s.trace ++ [.wr x v] } := by
  simp [State.busWrite32, State.record]

/-- What `MUL_LOCK` reads after a write of CR: its old value if the multiplier is kept on, else 0. -/
theorem State.mulLock_stored {s : State} (wf : s.params.wellFormed = true) (v : Word) :
    s.params.layout.mulLock.get (s.stored .cr v) =
      if s.params.layout.mulEn.get v = 1 then s.params.layout.mulLock.get s.cr else 0 := by
  obtain ⟨slot, width⟩ := mulLock_slot wf
  refine Slot.get_set_self slot v ?_
  split
  · exact Slot.holds_get_bit slot width s.cr
  · exact Slot.holds_zero _

/-- Settles O25: a write of CR sets the field `MUL_LOCK` of the written value, any other stores the value. -/
theorem busWriteStoresTheWord : Obligations.BusWriteStoresTheWord := by
  unfold Obligations.BusWriteStoresTheWord
  intro s v wf
  refine ⟨fun i hi outside => ?_, State.mulLock_stored wf v, fun x hx => ?_, fun x => ?_⟩
  · exact Slot.set_getLsbD_of_not_covers (mulLock_slot wf).1 v _ hi outside
  · rw [State.busWrite32_reg_self, State.stored_of_ne_cr s v hx]
  · rw [State.busWrite32_reg_self]
    exact s.busWrite32_eq x v

/-! ### Raw addresses -/

/-- A misaligned address finds no register (20_memory.md R78). -/
theorem regAt_misaligned {p : Params} (wf : p.wellFormed = true) {a : Word} (h : a.toNat % 4 ≠ 0) :
    regAt p.addr a = none :=
  regAt_none fun x e => h (e ▸ regAddr_aligned wf x)

/-- Settles O26: `ADDR(X)` finds X, and what finds no register is refused. -/
theorem rawAddressesReachTheirRegisterOrAreRefused :
    Obligations.RawAddressesReachTheirRegisterOrAreRefused := by
  unfold Obligations.RawAddressesReachTheirRegisterOrAreRefused
  intro s v wf
  refine ⟨fun x => ?_, fun a ha => ?_⟩
  · have found := regAt_regAddr wf x
    constructor
    · simp only [State.memRead32, found]
      rfl
    · simp only [State.memWrite32, found]
  · have found : regAt s.params.addr a = none := ha.elim regAt_none (regAt_misaligned wf)
    constructor
    · simp only [State.memRead32, found]
      rfl
    · simp only [State.memWrite32, found]
      rfl

/-! ### The frame of an operation -/

theorem State.pollOnce_reg (s : State) (y : Reg) : s.pollOnce.reg y = s.reg y := by
  unfold State.pollOnce
  dsimp only
  split <;> simp

theorem State.gate_reg_ne {s t : State} {c : Category} {y : Reg} (h : s.gate c = .next t)
    (hy : some (gateTarget s.params c) ≠ some y) : t.reg y = s.reg y := by
  have clocks : (s.enableClocks c).reg y = s.reg y :=
    s.enableClocks_reg_ne c fun e => hy (congrArg some e.symm)
  obtain ⟨-, rfl⟩ := State.gate_next.mp h
  split <;> simpa using clocks

/-- An operation changes no register but the one it writes on the bus (20_memory.md R71). -/
theorem exec_reg_ne {i : Instr} {s t : State} (h : exec i s = .next t) {y : Reg}
    (hy : writtenReg s.params i ≠ some y) : t.reg y = s.reg y := by
  have other : ∀ {x}, some x ≠ some y → y ≠ x := fun hx e => hx (congrArg some e.symm)
  cases i with
  | init =>
    obtain ⟨-, rfl⟩ := execInit_next.mp h
    split <;> simp
  | getBus1 => obtain ⟨-, rfl⟩ := execGetBus1_next.mp h; simp
  | getBus2 => obtain ⟨-, rfl⟩ := execGetBus2_next.mp h; simp
  | relUsb => obtain ⟨-, rfl⟩ := execRelUsb_next.mp h; simp
  | cfgInit =>
    obtain ⟨-, rfl⟩ := execCfgInit_next.mp h
    split
    · simp
    · simp [s.busWrite32_reg_ne _ (other hy)]
  | crFull =>
    obtain ⟨-, rfl⟩ := execCrFull_next.mp h
    simp [s.busWrite32_reg_ne _ (other hy)]
  | lockPoll => obtain ⟨-, -, rfl⟩ := execLockPoll_next.mp h; exact s.pollOnce_reg y
  | mtSet =>
    obtain ⟨-, rfl⟩ := execMtSet_next.mp h
    simp [s.busWrite32_reg_ne _ (other hy)]
  | cfgSwitch =>
    obtain ⟨-, rfl⟩ := execCfgSwitch_next.mp h
    split
    · simp
    · simp [s.busWrite32_reg_ne _ (other hy)]
  | gateGpio | gateSerial | gateAdc | gateTimer | gateUsb => exact State.gate_reg_ne h hy
  | usbRstRel =>
    obtain ⟨-, rfl⟩ := execUsbRstRel_next.mp h
    simp [s.readModifyWrite_reg_ne _ (other hy)]
  | reserved11 | reserved12 | reserved13 | reserved14 => cases h
  | uIdle => cases h; rfl

/-- A byte depends on the parameters and on the register its word belongs to (20_memory.md R75). -/
theorem State.busByte_congr {s t : State} {a : Word} (params : t.params = s.params)
    (same : ∀ x, regAt s.params.addr (wordAddr a) = some x → t.reg x = s.reg x) :
    t.busByte a = s.busByte a := by
  unfold State.busByte
  rw [params]
  cases found : regAt s.params.addr (wordAddr a) with
  | none => rfl
  | some x => simp only [same x found]

/-- Settles O28: the register frame, and with it that of the bytes of every other word. -/
theorem operationsWriteOnlyTheirRegister : Obligations.OperationsWriteOnlyTheirRegister := by
  unfold Obligations.OperationsWriteOnlyTheirRegister
  intro s t i h
  have params := (exec_effect h).keepsRecords.params
  exact ⟨params, fun _ => exec_reg_ne h, fun a outside =>
    State.busByte_congr params fun x found => exec_reg_ne h fun written => outside x written found⟩

/-! ### `EnvLock` and the writes -/

/-- `EnvLock` changes no register but CR (10_state.md R27). -/
theorem State.envLock_reg_ne (s : State) {y : Reg} (h : y ≠ .cr) : s.envLock.reg y = s.reg y := by
  cases y with
  | cr => exact absurd rfl h
  | cfgr | penr0 | penr1 | penr2 | prstr0 | prstr1 | mtcr => rfl

/-- A write of CR that keeps the multiplier on keeps the lock it finds, so it comes to the same whether the
lock is set before it or after. -/
theorem State.envLock_busWrite32_cr {s : State} (wf : s.params.wellFormed = true) {v : Word}
    (on : s.params.layout.mulEn.get v = 1) :
    (s.busWrite32 .cr v).envLock.cr = (s.envLock.busWrite32 .cr v).cr := by
  have slot := (mulLock_slot wf).1
  have locked : s.params.layout.mulLock.get (s.params.layout.mulLock.set s.cr 1#32) = 1#32 :=
    Slot.get_set_self slot _ Slot.holds_one
  simp [State.stored, on, locked, Slot.set_set slot]

/-- Settles O33: CR is the only register both change, and a write of it keeps the lock. -/
theorem envLockCommutesWithWrites : Obligations.EnvLockCommutesWithWrites := by
  unfold Obligations.EnvLockCommutesWithWrites
  intro s x v wf on y
  by_cases hy : y = .cr
  · subst hy
    by_cases hx : x = .cr
    · subst hx
      exact State.envLock_busWrite32_cr wf (on rfl)
    · have kept : ∀ r : State, (r.busWrite32 x v).cr = r.cr := fun r =>
        r.busWrite32_reg_ne (y := .cr) v (Ne.symm hx)
      calc (s.busWrite32 x v).envLock.cr = s.params.layout.mulLock.set (s.busWrite32 x v).cr 1 := by simp
        _ = s.envLock.cr := by rw [kept]; rfl
        _ = (s.envLock.busWrite32 x v).cr := (kept _).symm
  · rw [State.envLock_reg_ne _ hy]
    by_cases hx : y = x
    · subst hx
      simp [State.stored_of_ne_cr _ v hy]
    · rw [State.busWrite32_reg_ne _ _ hx, State.busWrite32_reg_ne _ _ hx, State.envLock_reg_ne _ hy]

end Sys2Proof.Machine
end

section
/-! PROOFS. Encoding: decoding and encoding are inverse to each other (30_encoding.md R110, R111, R114,
43_peripheral_gate.md R182), a placed code is fetched, the codes that run no operation, and where the two
words of CFGR differ (R108). -/

namespace Sys2Proof

/-! ### Decode and encode -/

/-- The code of a gate micro-operation names it again. -/
theorem decodeUop_gateUpc {o : GateOrder} (ho : o.isPermutation = true) (c : Category) :
    decodeUop o (gateUpc o c) = gateInstr c := by
  obtain ⟨first, second, third, fourth, fifth⟩ := gateUpc_slots ho
  rcases o.covers ho c with rfl | rfl | rfl | rfl | rfl
  · rw [first]; rfl
  · rw [second]; rfl
  · rw [third]; rfl
  · rw [fourth]; rfl
  · rw [fifth]; rfl

/-- Only the codes of the gates depend on the gate order. -/
theorem decode_encode {o : GateOrder} (ho : o.isPermutation = true) (i : Instr) :
    decode o (encode o i) = i := by
  cases i with
  | gateGpio => exact decodeUop_gateUpc ho .gpio
  | gateSerial => exact decodeUop_gateUpc ho .serial
  | gateAdc => exact decodeUop_gateUpc ho .adc
  | gateTimer => exact decodeUop_gateUpc ho .timer
  | gateUsb => exact decodeUop_gateUpc ho .usb
  | init | getBus1 | getBus2 | relUsb | cfgInit | crFull | lockPoll | mtSet | cfgSwitch | usbRstRel
  | reserved11 | reserved12 | reserved13 | reserved14 | uIdle => rfl

/-- Settles O1: row by row, the gates by their slot in the gate order. -/
theorem decodeOfEncodeIsTheInstruction : Obligations.DecodeOfEncodeIsTheInstruction := by
  unfold Obligations.DecodeOfEncodeIsTheInstruction
  exact fun _ => decode_encode

theorem encode_decodeCmd (o : GateOrder) (c : BitVec 2) : encode o (decodeCmd c).instr = .cmd c := by
  have codes : ∀ c : BitVec 2, c = 0 ∨ c = 1 ∨ c = 2 ∨ c = 3 := by decide
  rcases codes c with rfl | rfl | rfl | rfl <;> rfl

/-- The codes that name the same operation under every gate order. -/
theorem encode_decodeUop_of_not_gate (o : GateOrder) {u : BitVec 4} (h : ¬(5 ≤ u.toNat ∧ u.toNat ≤ 9)) :
    encode o (decodeUop o u) = .uop u := by
  have codes : ∀ u : BitVec 4, ¬(5 ≤ u.toNat ∧ u.toNat ≤ 9) → u = 0 ∨ u = 1 ∨ u = 2 ∨ u = 3 ∨ u = 4 ∨
      u = 10 ∨ u = 11 ∨ u = 12 ∨ u = 13 ∨ u = 14 ∨ u = 15 := by decide
  rcases codes u h with rfl | rfl | rfl | rfl | rfl | rfl | rfl | rfl | rfl | rfl | rfl <;> rfl

theorem encode_decodeUop {o : GateOrder} (ho : o.isPermutation = true) (u : BitVec 4) :
    encode o (decodeUop o u) = .uop u := by
  by_cases h : 5 ≤ u.toNat ∧ u.toNat ≤ 9
  · obtain ⟨c, named, code⟩ := decodeUop_gate ho h.1 h.2
    rw [named, encode_gateInstr, code]
  · exact encode_decodeUop_of_not_gate o h

/-- Settles O2, format by format. -/
theorem encodeOfDecodeIsTheCode : Obligations.EncodeOfDecodeIsTheCode := by
  unfold Obligations.EncodeOfDecodeIsTheCode
  intro o ho c
  cases c with
  | cmd c => exact encode_decodeCmd o c
  | uop u => exact encode_decodeUop ho u

/-- Settles O3: each code is closed, so the table is read off. -/
theorem codesOfTheTablesDecode : Obligations.CodesOfTheTablesDecode := by
  unfold Obligations.CodesOfTheTablesDecode
  decide

/-! ### The words of CFGR -/

theorem Slot.mask_getLsbD_outside {f : Slot} (hf : f.inWord = true) {i : Nat} (hi : i < 32)
    (h : f.covers i = false) : f.mask.getLsbD i = false := by
  rw [Slot.mask_getLsbD hf hi]
  simpa [Slot.covers] using h

namespace Machine

theorem sysSrc_inWord {p : Params} (wf : p.wellFormed = true) : p.layout.sysSrc.inWord = true :=
  (slotsApart_cons.mp (p.cfgr_slots wf).1).1

theorem adcDiv_inWord {p : Params} (wf : p.wellFormed = true) : p.layout.adcDiv.inWord = true := by
  obtain ⟨slots, -⟩ := p.cfgr_slots wf
  simp only [slotsApart_cons] at slots
  simp only [slots]

/-- Outside the two fields it replaces, the switch writes the bits CFG_INIT wrote. -/
theorem cfgSwitchWord_getLsbD_outside {p : Params} (wf : p.wellFormed = true) {i : Nat} (hi : i < 32)
    (source : p.layout.sysSrc.covers i = false) (divider : p.layout.adcDiv.covers i = false) :
    (cfgSwitchWord p).getLsbD i = (cfgInitWord p).getLsbD i := by
  have hs := sysSrc_inWord wf
  have ha := adcDiv_inWord wf
  simp only [cfgSwitchWord, BitVec.getLsbD_or, BitVec.getLsbD_and, BitVec.getLsbD_not, hi, decide_true,
    Slot.mask_getLsbD_outside hs hi source, Slot.mask_getLsbD_outside ha hi divider,
    Slot.put_getLsbD_outside hs _ hi source, Slot.put_getLsbD_outside ha _ hi divider,
    Bool.not_false, Bool.and_true, Bool.or_false]

/-- Settles O4: a bit outside both fields does not differ. -/
theorem configurationWordsDifferOnlyInSourceAndAdcDivider :
    Obligations.ConfigurationWordsDifferOnlyInSourceAndAdcDivider := by
  unfold Obligations.ConfigurationWordsDifferOnlyInSourceAndAdcDivider
  intro p wf i hi differ
  by_contra outside
  obtain ⟨source, divider⟩ := not_or.mp outside
  exact differ (cfgSwitchWord_getLsbD_outside wf hi (Bool.eq_false_iff.mpr source)
    (Bool.eq_false_iff.mpr divider))

/-! ### Placed codes, the idle code and the reserved codes -/

theorem State.withFetchWord_of_tableCode (s : State) {nbits w : Nat} {c : Code}
    (h : tableCode nbits w = .ok c) : s.withFetchWord nbits w = s.place c := by
  simp only [State.withFetchWord, h]

/-- A command waits at the port of the idle block, a micro-operation stands in `upc` of the busy one, and
`U_IDLE` is what the idle block with an empty port reads. -/
theorem State.fetch_place (s : State) (c : Code) : (s.place c).fetch = c := by
  cases c with
  | cmd c => exact State.fetch_command (rest := s.port) rfl rfl
  | uop u =>
    by_cases hu : u = upcIdle
    · simp only [State.place, if_pos hu]
      rw [State.fetch_waiting rfl rfl, hu]
    · simp only [State.place, if_neg hu]
      exact State.fetch_busy rfl

/-- Settles O30: what is placed is fetched. -/
theorem placedCodeIsFetched : Obligations.PlacedCodeIsFetched := by
  unfold Obligations.PlacedCodeIsFetched
  intro s nbits w c hc
  rw [s.withFetchWord_of_tableCode hc, s.fetch_place]

/-- An idle block with an empty port has nothing to take off it. -/
theorem State.advance_waiting {s : State} (hb : s.busy = false) (hp : s.port = []) :
    s.advance = { s with draws := s.draws + 1 } := by
  have empty : s.port.tail = s.port := by rw [hp]; rfl
  rw [State.advance_idle hb, empty]
  rfl

/-- Settles O22: the idle block fetches `U_IDLE`, and only the draw counter moves on. -/
theorem idleChangesNothing : Obligations.IdleChangesNothing := by
  unfold Obligations.IdleChangesNothing
  refine ⟨fun _ => rfl, fun s wf running noEnv hb hp => ?_⟩
  calc step s = exec (decode s.params.gateOrder s.fetch) s.advance :=
        step_run (paramsRefusal_none wf) running noEnv
    _ = exec .uIdle s.advance := by rw [State.fetch_waiting hb hp]; rfl
    _ = .next s.advance := rfl
    _ = .next { s with draws := s.draws + 1 } := by rw [State.advance_waiting hb hp]

/-- A row that is no operation of the block is stuck (30_encoding.md R114). -/
theorem exec_of_not_wellFormed {i : Instr} (h : i.wellFormed = false) (s : State) :
    exec i s = .fault .reservedUpc := by
  cases i with
  | reserved11 | reserved12 | reserved13 | reserved14 => rfl
  | _ => cases h

theorem decodeUop_reserved (o : GateOrder) {u : BitVec 4} (h11 : 11 ≤ u.toNat) (h14 : u.toNat ≤ 14) :
    (decodeUop o u).wellFormed = false := by
  have codes : ∀ u : BitVec 4, 11 ≤ u.toNat → u.toNat ≤ 14 → u = 11 ∨ u = 12 ∨ u = 13 ∨ u = 14 := by decide
  rcases codes u h11 h14 with rfl | rfl | rfl | rfl <;> rfl

/-- Settles O23: a busy block runs the code in `upc`, and the reserved codes name no operation. -/
theorem reservedMicroProgramCodesAreStuck : Obligations.ReservedMicroProgramCodesAreStuck := by
  unfold Obligations.ReservedMicroProgramCodesAreStuck
  have reserved : ∀ i ∈ [Instr.reserved11, .reserved12, .reserved13, .reserved14], i.wellFormed = false := by
    decide
  refine ⟨fun s i hi => exec_of_not_wellFormed (reserved i hi) s, ?_⟩
  intro s wf running noEnv hb h11 h14
  rw [step_run (paramsRefusal_none wf) running noEnv, State.fetch_busy hb]
  exact exec_of_not_wellFormed (decodeUop_reserved _ h11 h14) _

end Machine

end Sys2Proof
end

section
/-! PROOFS. The Clock Selector/Multiplier (40_clock_multiplier.md R141 to R147): the fields of the two words it
writes, its three micro-operations, and when a micro-operation is enabled. -/

namespace Sys2Proof.Machine

/-! ### The fields of the two words -/

theorem cfgInitWord_dividers {p : Params} (wf : p.wellFormed = true) :
    p.layout.apb1Div.get (cfgInitWord p) = p.enc.apb1Div2 ∧
    p.layout.ahbDiv.get (cfgInitWord p) = p.enc.ahbDiv1 ∧
    p.layout.apb2Div.get (cfgInitWord p) = p.enc.apb2Div1 ∧
    p.layout.adcDiv.get (cfgInitWord p) = 0 ∧ p.layout.usbDiv.get (cfgInitWord p) = 0 := by
  have slots := p.cfgr_slots wf
  simp only [slotsApart_cons, List.mem_cons, List.not_mem_nil, or_false, forall_eq_or_imp, forall_eq]
    at slots
  simp [cfgInitWord, Slot.get_or, Slot.get_put_self, Slot.get_put_apart, slots]

/-- A bit of no field that `CFG_INIT_WORD` names is 0 (30_encoding.md R105). -/
theorem cfgInitWord_getLsbD_outside {p : Params} (wf : p.wellFormed = true) {i : Nat} (hi : i < 32)
    (outside : ([p.layout.mulSrc, p.layout.mulFact, p.layout.sysSrc, p.layout.apb1Div, p.layout.ahbDiv,
      p.layout.apb2Div].any fun f => f.covers i) = false) : (cfgInitWord p).getLsbD i = false := by
  have slots := (p.cfgr_slots wf).1
  simp only [slotsApart_cons] at slots
  simp only [List.any_cons, List.any_nil, Bool.or_false, Bool.or_eq_false_iff] at outside
  simp only [cfgInitWord, BitVec.getLsbD_or, Slot.put_getLsbD_outside, hi, slots, outside, Bool.or_self]

theorem crWord_xoscTrim {p : Params} (wf : p.wellFormed = true) :
    p.layout.xoscTrim.get (crWord p) = p.trimValue := by
  have slots := p.cr_slots wf
  simp only [slotsApart_cons, List.mem_cons, List.not_mem_nil, or_false, forall_eq_or_imp, forall_eq]
    at slots
  simp [crWord, Slot.get_or, Slot.get_put_self, Slot.get_put_apart, slots]

/-- A write of CR takes the written value in every field but `MUL_LOCK` (20_memory.md R77). -/
theorem State.stored_cr_fields {s : State} (wf : s.params.wellFormed = true) (v : Word) :
    s.params.layout.ioscEn.get (s.stored .cr v) = s.params.layout.ioscEn.get v ∧
    s.params.layout.xoscEn.get (s.stored .cr v) = s.params.layout.xoscEn.get v ∧
    s.params.layout.xoscTrim.get (s.stored .cr v) = s.params.layout.xoscTrim.get v ∧
    s.params.layout.mulEn.get (s.stored .cr v) = s.params.layout.mulEn.get v :=
  get_set_mulLock wf v _

/-- A bit of no field of CR is 0 in what a write of `CR_WORD` leaves (30_encoding.md R106). -/
theorem State.stored_crWord_getLsbD_outside {s : State} (wf : s.params.wellFormed = true) {i : Nat}
    (hi : i < 32) (outside : ([s.params.layout.ioscEn, s.params.layout.xoscEn, s.params.layout.xoscTrim,
      s.params.layout.mulEn, s.params.layout.mulLock].any fun f => f.covers i) = false) :
    (s.stored .cr (crWord s.params)).getLsbD i = false := by
  have slots := (s.params.cr_slots wf).1
  simp only [slotsApart_cons] at slots
  simp only [List.any_cons, List.any_nil, Bool.or_false, Bool.or_eq_false_iff] at outside
  obtain ⟨iosc, xosc, trim, on, lock⟩ := outside
  calc (s.stored .cr (crWord s.params)).getLsbD i = (crWord s.params).getLsbD i :=
        Slot.set_getLsbD_of_not_covers (mulLock_slot wf).1 _ _ hi lock
    _ = false := by
        simp only [crWord, BitVec.getLsbD_or, Slot.put_getLsbD_outside, hi, slots, iosc, xosc, trim, on,
          Bool.or_self]

/-! ### The three micro-operations -/

/-- Settles O10: the word written is `CFG_INIT_WORD`. -/
theorem cfgInitProgramsTheConfiguration : Obligations.CfgInitProgramsTheConfiguration := by
  unfold Obligations.CfgInitProgramsTheConfiguration
  intro s wf hb hu running
  obtain ⟨sysSrc, mulSrc, mulFact⟩ := cfgInitWord_fields wf
  obtain ⟨apb1, ahb, apb2, adc, usb⟩ := cfgInitWord_dividers wf
  exact ⟨(s.busWrite32 .cfgr (cfgInitWord s.params)).goto 1,
    execCfgInit_next.mpr ⟨⟨hb, hu⟩, by simp [running]⟩, rfl, mulSrc, mulFact, sysSrc, apb1, ahb, apb2, adc,
    usb, fun _ hi outside => cfgInitWord_getLsbD_outside wf hi outside⟩

/-- Settles O12: what the write leaves is `CR_WORD` but for `MUL_LOCK`, which it keeps. -/
theorem crFullEnablesOscillatorsAndMultiplier : Obligations.CrFullEnablesOscillatorsAndMultiplier := by
  unfold Obligations.CrFullEnablesOscillatorsAndMultiplier
  intro s wf hb hu
  obtain ⟨iosc, xosc, on, -⟩ := crWord_fields wf
  obtain ⟨sameIosc, sameXosc, sameTrim, sameOn⟩ := State.stored_cr_fields wf (crWord s.params)
  exact ⟨((s.busWrite32 .cr (crWord s.params)).goto 2).enter phOscillatorsStarting,
    execCrFull_next.mpr ⟨⟨hb, hu⟩, rfl⟩, rfl, sameIosc.trans iosc, sameXosc.trans xosc,
    sameTrim.trans (crWord_xoscTrim wf), sameOn.trans on, (State.mulLock_stored wf _).trans (if_pos on),
    fun _ hi outside => State.stored_crWord_getLsbD_outside wf hi outside⟩

/-- Settles O13, by the value of `MUL_LOCK` that the poll reads. -/
theorem lockPollGoesOnOnlyWhenLocked : Obligations.LockPollGoesOnOnlyWhenLocked := by
  unfold Obligations.LockPollGoesOnOnlyWhenLocked
  intro s hb hu uncapped
  have polled : exec .lockPoll s = .next s.pollOnce := execLockPoll_next.mpr ⟨⟨hb, hu⟩, uncapped, rfl⟩
  exact ⟨fun locked => by rw [polled, State.pollOnce_locked locked],
    fun unlocked => by rw [polled, State.pollOnce_unlocked unlocked]⟩

/-- Settles O48: the phase `MultiplierLocked` fixes CR and CFGR. -/
theorem lockedMultiplierIsNotYetSelected : Obligations.LockedMultiplierIsNotYetSelected := by
  unfold Obligations.LockedMultiplierIsNotYetSelected
  intro s h hu
  have hp : s.phase = phMultiplierLocked := h.phase_at hu (by decide)
  have hcr : s.cr = crLocked s.params := h.locked (by rw [hp]; decide)
  have hcfgr : s.cfgr = cfgInitWord s.params := h.configured (.inr (by rw [hp]; decide))
  obtain ⟨on, lock, iosc⟩ := crLocked_fields h.wf
  obtain ⟨sysSrc, mulSrc, mulFact⟩ := cfgInitWord_fields h.wf
  rw [← hcr] at on lock iosc
  rw [← hcfgr] at sysSrc mulSrc mulFact
  exact ⟨on, lock, if_pos ⟨on, lock, mulSrc, mulFact⟩, sysSrc, if_pos ⟨sysSrc, iosc⟩⟩

/-! ### The poll cap -/

theorem execLockPoll_capReached {s : State} (hb : s.busy = true) (hu : s.upc = 2)
    (cap : s.params.pollCap = some s.polls) : execLockPoll s = .fault .pollCapReached := by
  have reached : s.capReached = true := by simp [State.capReached, hb, hu, cap]
  exact (State.selected_of _ hb hu).trans (if_pos reached)

theorem State.envActs_of_capReached {s : State} (h : s.capReached = true) : s.envActs = false := by
  simp [State.envActs, h]

/-- Settles O14: at the cap ENV is not asked, and the poll stops. -/
theorem pollCapStopsTheRun : Obligations.PollCapStopsTheRun := by
  unfold Obligations.PollCapStopsTheRun
  intro s wf running hb hu cap
  have noEnv : s.envActs = false :=
    State.envActs_of_capReached (by simp [State.capReached, hb, hu, cap])
  refine ⟨execLockPoll_capReached hb hu cap, ?_⟩
  rw [step_run (paramsRefusal_none wf) running noEnv, State.fetch_busy hb, State.advance_busy hb, hu]
  exact execLockPoll_capReached (s := s.tick) hb hu cap

/-! ### When a micro-operation is enabled -/

theorem State.selected_not {s : State} {u : BitVec 4} (r : Result) (h : ¬(s.busy = true ∧ s.upc = u)) :
    s.selected u r = .fault .notSelected :=
  if_neg h

/-- Every micro-operation but the waiting and the reserved ones is run under its own code. -/
theorem exec_eq_selected {i : Instr} (micro : i.isCommand = false) (wf : i.wellFormed = true)
    (work : i ≠ .uIdle) (s : State) :
    ∃ u r, encode s.params.gateOrder i = .uop u ∧ exec i s = s.selected u r := by
  cases i with
  | init | getBus1 | getBus2 | relUsb => cases micro
  | reserved11 | reserved12 | reserved13 | reserved14 => cases wf
  | uIdle => exact absurd rfl work
  | cfgInit | crFull | lockPoll | mtSet | cfgSwitch | gateGpio | gateSerial | gateAdc | gateTimer | gateUsb
  | usbRstRel => exact ⟨_, _, rfl, rfl⟩

/-- Settles O24: the code of a micro-operation is the one it is selected by. -/
theorem microOperationsNeedTheirCode : Obligations.MicroOperationsNeedTheirCode := by
  unfold Obligations.MicroOperationsNeedTheirCode
  intro s i micro wf work notCode
  obtain ⟨u, r, code, run⟩ := exec_eq_selected micro wf work s
  rw [run]
  exact State.selected_not r fun ⟨hb, hu⟩ => notCode ⟨hb, by rw [code, hu]⟩

end Sys2Proof.Machine
end

section
/-! PROOFS. Under `LOCK_EVENTUALLY` no command runs for ever (40_clock_multiplier.md R148, 10_state.md R27):
every step of a busy block but a poll that reads the lock as 0 brings it closer to its end, and while such
polls repeat, `EnvLock` stays enabled. -/

namespace Sys2Proof.Machine

/-! ### One micro-operation -/

/-- A busy block stands at the code of a micro-operation. -/
theorem State.Inv.busy_upc {s : State} (h : s.Inv) (hb : s.busy = true) : s.upc = 0 ∨ s.upc = 1 ∨
    s.upc = 2 ∨ s.upc = 3 ∨ s.upc = 4 ∨ (5 ≤ s.upc.toNat ∧ s.upc.toNat ≤ 9) ∨ s.upc = 10 := by
  have codes : ∀ u ph, placeOk u ph = true → u ≠ upcIdle → u = 0 ∨ u = 1 ∨ u = 2 ∨ u = 3 ∨ u = 4 ∨
      (5 ≤ u.toNat ∧ u.toNat ≤ 9) ∨ u = 10 := by decide
  exact codes _ _ h.place (h.idle.not.mp (by simp [hb]))

/-- At the poll `EnvLock` is enabled as long as the lock is not set. -/
theorem State.Inv.lockEnabled_at_poll {s : State} (h : s.Inv) (hu : s.upc = 2)
    (unlocked : s.params.layout.mulLock.get s.cr ≠ 1) : s.lockEnabled = true := by
  have hp : s.phase = phOscillatorsStarting := h.phase_at hu (by decide)
  have hcr : s.cr = crWord s.params := (h.started hp).resolve_right fun hc =>
    unlocked (hc ▸ (crLocked_fields h.wf).2.1)
  have hcfgr : s.cfgr = cfgInitWord s.params := h.configured (.inr (by rw [hp]; decide))
  obtain ⟨-, xosc, on, off⟩ := crWord_fields h.wf
  obtain ⟨-, source, -⟩ := cfgInitWord_fields h.wf
  rw [State.lockEnabled_iff, hcr, hcfgr]
  exact ⟨on, off, source, xosc⟩

/-- A poll goes on if it sees the lock; if not, it leaves `EnvLock` enabled. -/
theorem State.Inv.poll_moves_on {s : State} (h : s.Inv) (hu : s.upc = 2) :
    s.upc.toNat < s.pollOnce.upc.toNat ∨
      s.lockEnabled = true ∧ s.pollOnce.lockEnabled = true ∧ s.pollOnce.upc = s.upc := by
  by_cases locked : s.params.layout.mulLock.get s.cr = 1
  · left
    rw [State.pollOnce_locked locked, hu]
    simp
  · have enabled := h.lockEnabled_at_poll hu locked
    rw [State.pollOnce_unlocked locked]
    exact .inr ⟨enabled, enabled, hu.symm⟩

/-- A gate ends the command or goes on to the next code. -/
theorem State.gate_moves_on {s t : State} {c : Category} (h : s.gate c = .next t) :
    t.busy = false ∨ s.upc.toNat < t.upc.toNat := by
  obtain ⟨⟨-, hu⟩, rfl⟩ := State.gate_next.mp h
  have next : ∀ u : BitVec 4, u.toNat ≤ 9 → u.toNat < (u + 1).toNat := by decide
  split
  · exact .inl rfl
  · exact .inr (next _ (hu ▸ (gateUpc_bounds ..).2))

/-- A micro-operation ends the command or goes on to a later code, but for a poll that reads the lock as 0. -/
theorem State.Inv.uop_moves_on {s t : State} (h : s.Inv) (hb : s.busy = true)
    (he : exec (decodeUop s.params.gateOrder s.upc) s = .next t) :
    t.busy = false ∨ s.upc.toNat < t.upc.toNat ∨
      s.lockEnabled = true ∧ t.lockEnabled = true ∧ t.upc = s.upc := by
  rcases h.busy_upc hb with hu | hu | hu | hu | hu | ⟨h5, h9⟩ | hu
  · rw [hu] at he ⊢; obtain ⟨-, rfl⟩ := h.execCfgInit_next.mp he; exact .inr (.inl (by simp))
  · rw [hu] at he ⊢; obtain ⟨-, rfl⟩ := execCrFull_next.mp he; exact .inr (.inl (by simp))
  · rw [hu] at he; obtain ⟨-, -, rfl⟩ := execLockPoll_next.mp he; exact .inr (h.poll_moves_on hu)
  · rw [hu] at he ⊢; obtain ⟨-, rfl⟩ := execMtSet_next.mp he; exact .inr (.inl (by simp))
  · rw [hu] at he ⊢; obtain ⟨-, rfl⟩ := h.execCfgSwitch_next.mp he; exact .inr (.inl (by simp))
  · obtain ⟨c, named, -⟩ := decodeUop_gate (s.params.gateOrder_nodup h.wf) h5 h9
    rw [named, exec_gateInstr] at he
    exact (State.gate_moves_on he).imp_right .inl
  · rw [hu] at he; obtain ⟨-, rfl⟩ := execUsbRstRel_next.mp he; exact .inl rfl

/-! ### One step -/

/-- How far a busy block is from the end of its command: the codes still to come, and whether the lock is
awaited. -/
def State.remaining (s : State) : Nat := 2 * (15 - s.upc.toNat) + if s.lockEnabled then 1 else 0

theorem State.remaining_lt {s t : State} (h : s.upc.toNat < t.upc.toNat) : t.remaining < s.remaining := by
  have := t.upc.isLt
  unfold State.remaining
  split <;> split <;> omega

/-- ENV ends the wait for the lock. -/
theorem State.remaining_envLock {s : State} (wf : s.params.wellFormed = true) (he : s.lockEnabled = true) :
    s.envLock.remaining < s.remaining := by
  have locked : s.envLock.lockEnabled = false := Bool.eq_false_iff.mpr fun enabled => by
    have unlocked := (State.lockEnabled_iff.mp enabled).2.1
    have set : s.params.layout.mulLock.get s.envLock.cr = 1 :=
      Slot.get_set_self (mulLock_slot wf).1 _ Slot.holds_one
    exact absurd (set.symm.trans unlocked) (by decide)
  simp [State.remaining, locked, he]

theorem State.envActs_of_turn {s : State} (h : s.turn = .env) : s.envActs = true := by
  unfold State.turn at h
  split at h
  · cases h
  · split at h
    · cases h
    · split at h
      · assumption
      · cases h

/-- A step of a busy block ends the command or brings it closer to its end, or it is a poll made while ENV
could have locked. -/
theorem State.Inv.step_moves_on {s t : State} (h : s.Inv) (hb : s.busy = true) (hstep : step s = .next t) :
    t.busy = false ∨ t.remaining < s.remaining ∨
      (s.lockEnabled = true ∧ s.turn ≠ .env) ∧ t.remaining = s.remaining := by
  obtain ⟨-, ⟨acts, rfl⟩ | ⟨rests, he⟩⟩ := step_next_of_wellFormed h.wf hstep
  · exact .inr (.inl (State.remaining_envLock h.wf (State.lockEnabled_of_envActs acts)))
  · rw [State.fetch_busy hb, State.advance_busy hb] at he
    rcases h.tick.uop_moves_on hb he with ended | further | ⟨enabled, still, same⟩
    · exact .inl ended
    · exact .inr (.inl (State.remaining_lt (s := s.tick) further))
    · have notEnv : s.turn ≠ .env := fun ht => by simp [State.envActs_of_turn ht] at rests
      have enabled : s.lockEnabled = true := enabled
      have same : t.upc = s.upc := same
      exact .inr (.inr ⟨⟨enabled, notEnv⟩, by simp only [State.remaining, still, enabled, same]⟩)

/-! ### A run -/

theorem IsRun.inv {σ : Nat → State} (run : IsRun σ) (h : (σ 0).Inv) (n : Nat) : (σ n).Inv := by
  induction n with
  | zero => exact h
  | succ n ih => exact everyStepKeepsTheStateInvariant _ _ ih (run n)

/-- Settles O55: in a run that is always busy, from the state closest to the end on every step is a poll
made while ENV could have locked, so that `LOCK_EVENTUALLY` is violated. -/
theorem commandsEndIfTheLockComes : Obligations.CommandsEndIfTheLockComes := by
  unfold Obligations.CommandsEndIfTheLockComes
  intro σ run h fair
  by_contra! busy
  have moves : ∀ n, (σ (n + 1)).remaining < (σ n).remaining ∨
      ((σ n).lockEnabled = true ∧ (σ n).turn ≠ .env) ∧ (σ (n + 1)).remaining = (σ n).remaining := fun n =>
    ((run.inv h n).step_moves_on (by simpa using busy n) (run n)).resolve_left (busy (n + 1))
  have falls : Antitone fun n => (σ n).remaining :=
    antitone_nat_of_succ_le fun n => (moves n).elim Nat.le_of_lt fun polled => polled.2.le
  obtain ⟨n, closest⟩ : ∃ n, ∀ m, (σ n).remaining ≤ (σ m).remaining :=
    ⟨_, fun m => Function.argmin_le (fun n => (σ n).remaining) m⟩
  have polls : ∀ m, n ≤ m → (σ m).lockEnabled = true ∧ (σ m).turn ≠ .env := fun m hm => by
    have notCloser := Nat.not_lt.mpr ((falls hm).trans (closest (m + 1)))
    exact ((moves m).resolve_left notCloser).1
  obtain ⟨m, hm, env⟩ := fair n fun m hm => (polls m hm).1
  exact (polls m hm).2 env

end Sys2Proof.Machine
end

section
/-! PROOFS. The Memory-Timing Adjuster (41_memory_timing.md R161, R162): the fields of the word it writes, its
micro-operation, and the place of its write in the trace of a bring-up. -/

namespace Sys2Proof.Machine

/-! ### The fields of `MT_WORD` -/

/-- The code of a wait-state count is the count itself (10_state.md R37). -/
theorem mtWord_ws_toNat {p : Params} (wf : p.wellFormed = true) :
    (p.layout.ws.get (mtWord p)).toNat = p.wsTarget.val := by
  rw [mtWord_ws wf, BitVec.toNat_ofNat, Nat.mod_eq_of_lt (p.wsTarget.isLt.trans (by decide))]

theorem mtWord_hcEn {p : Params} (wf : p.wellFormed = true) : p.layout.hcEn.get (mtWord p) = 0 := by
  have slots := p.mtcr_slots wf
  simp only [slotsApart_cons, List.mem_cons, List.not_mem_nil, or_false, forall_eq_or_imp, forall_eq]
    at slots
  simp [mtWord, Slot.get_or, Slot.get_put_apart, slots]

/-- A bit of no field that `MT_WORD` names is 0 (30_encoding.md R107). -/
theorem mtWord_getLsbD_outside {p : Params} (wf : p.wellFormed = true) {i : Nat} (hi : i < 32)
    (ws : p.layout.ws.covers i = false) (pfEn : p.layout.pfEn.covers i = false) :
    (mtWord p).getLsbD i = false := by
  have slots := (p.mtcr_slots wf).1
  simp only [slotsApart_cons] at slots
  simp only [mtWord, BitVec.getLsbD_or, Slot.put_getLsbD_outside, hi, slots, ws, pfEn, Bool.or_self]

/-- Settles O15: the word written is `MT_WORD`. -/
theorem mtSetRaisesTheWaitStates : Obligations.MtSetRaisesTheWaitStates := by
  unfold Obligations.MtSetRaisesTheWaitStates
  intro s wf hb hu
  exact ⟨((s.busWrite32 .mtcr (mtWord s.params)).goto 4).enter phMemoryTimingSet,
    execMtSet_next.mpr ⟨⟨hb, hu⟩, rfl⟩, rfl, mtWord_ws_toNat wf, mtWord_pfEn wf, mtWord_hcEn wf,
    fun _ hi ws pfEn => mtWord_getLsbD_outside wf hi ws pfEn⟩

/-! ### The order of the bring-up -/

/-- From the switch on, the trace holds all three order marks. -/
theorem State.TraceInv.filter_isOrderMark {s : State} (h : s.TraceInv) (hp : 4 ≤ s.phase.toNat) :
    s.trace.filter (isOrderMark s.params) = orderMarks s.params := by
  rw [h.order]
  exact List.take_of_length_le (show 3 ≤ s.phase.toNat - 1 by omega)

/-- A list with exactly three elements that satisfy `q` is cut by them into four parts without any. -/
theorem exists_cut_of_filter_eq {α : Type} {q : α → Bool} {l : List α} {x y z : α}
    (h : l.filter q = [x, y, z]) :
    ∃ a b c d : List α, l = a ++ x :: b ++ y :: c ++ z :: d ∧ ∀ e ∈ a ++ b ++ c ++ d, q e = false := by
  obtain ⟨a, rest, rfl, ha, -, hrest⟩ := List.filter_eq_cons_iff.mp h
  obtain ⟨b, rest, rfl, hb, -, hrest⟩ := List.filter_eq_cons_iff.mp hrest
  obtain ⟨c, d, rfl, hc, -, hd⟩ := List.filter_eq_cons_iff.mp hrest
  refine ⟨a, b, c, d, by simp, fun e he => Bool.eq_false_iff.mpr ?_⟩
  simp only [List.mem_append] at he
  obtain ((he | he) | he) | he := he
  · exact ha e he
  · exact hb e he
  · exact hc e he
  · exact List.filter_eq_nil_iff.mp hd e he

/-- Settles O51: the three order marks cut the trace, and no event of the parts between them is a mark. -/
theorem waitStatesAreRaisedBetweenLockAndSwitch :
    Obligations.WaitStatesAreRaisedBetweenLockAndSwitch := by
  unfold Obligations.WaitStatesAreRaisedBetweenLockAndSwitch
  intro s hi h hp
  obtain ⟨a, b, c, d, cut, noMark⟩ := exists_cut_of_filter_eq (h.filter_isOrderMark hp)
  obtain ⟨-, lock, -⟩ := crLocked_fields hi.wf
  refine ⟨a, b, c, d, crLocked s.params, cut, lock, fun w hw => ?_, fun w hw => ?_, fun w hw => ?_⟩
  · have unlocked : (lockBit s.params w == 1) = false := noMark (.rd .cr w) (by simp [hw])
    simpa using unlocked
  · have other : true = false := noMark (.wr .mtcr w) hw
    cases other
  · have unselected : (s.params.layout.sysSrc.get w == s.params.enc.sysSrcMul) = false :=
      noMark (.wr .cfgr w) hw
    simpa using unselected

end Sys2Proof.Machine
end

section
/-! PROOFS. The System Clock Switch (42_clock_switch.md R172 to R174): the fields of the word it writes, its
micro-operation, what it finds, and the clocks from the switch on. -/

namespace Sys2Proof.Machine

/-! ### The fields of `CFG_SWITCH_WORD` -/

theorem cfgSwitchWord_usbDiv {p : Params} (wf : p.wellFormed = true) :
    p.layout.usbDiv.get (cfgSwitchWord p) = 0 := by
  obtain ⟨-, -, -, -, init⟩ := cfgInitWord_dividers wf
  have slots := (p.cfgr_slots wf).1
  simp only [slotsApart_cons, List.mem_cons, List.not_mem_nil, or_false, forall_eq_or_imp, forall_eq]
    at slots
  simp [cfgSwitchWord, Slot.get_or, Slot.get_put_apart, Slot.get_clear_apart, slots, init]

/-- A bit of no field that `CFG_SWITCH_WORD` names is 0 (30_encoding.md R108): outside the two fields it
replaces it is the bit CFG_INIT wrote. -/
theorem cfgSwitchWord_getLsbD_unnamed {p : Params} (wf : p.wellFormed = true) {i : Nat} (hi : i < 32)
    (outside : ([p.layout.sysSrc, p.layout.adcDiv, p.layout.mulSrc, p.layout.mulFact, p.layout.apb1Div,
      p.layout.ahbDiv, p.layout.apb2Div].any fun f => f.covers i) = false) :
    (cfgSwitchWord p).getLsbD i = false := by
  simp only [List.any_cons, List.any_nil, Bool.or_false, Bool.or_eq_false_iff] at outside
  obtain ⟨source, adc, others⟩ := outside
  rw [cfgSwitchWord_getLsbD_outside wf hi source adc]
  exact cfgInitWord_getLsbD_outside wf hi (by simp [source, others])

/-- Settles O16: the word written is `CFG_SWITCH_WORD`. -/
theorem cfgSwitchSelectsTheMultiplier : Obligations.CfgSwitchSelectsTheMultiplier := by
  unfold Obligations.CfgSwitchSelectsTheMultiplier
  intro s wf hb hu running
  obtain ⟨sysSrc, mulSrc, mulFact⟩ := cfgSwitchWord_fields wf
  obtain ⟨ahb, apb1, apb2, adc⟩ := cfgSwitchWord_dividers wf
  exact ⟨((s.busWrite32 .cfgr (cfgSwitchWord s.params)).goto 5).enter phClockSwitched,
    execCfgSwitch_next.mpr ⟨⟨hb, hu⟩, by simp [running]⟩, rfl, sysSrc, adc, mulSrc, mulFact, apb1, ahb, apb2,
    cfgSwitchWord_usbDiv wf, fun _ hi outside => cfgSwitchWord_getLsbD_unnamed wf hi outside⟩

/-! ### Before the switch -/

/-- Settles O49: the phase `MemoryTimingSet` fixes CR, MTCR and CFGR. -/
theorem switchFindsLockAndWaitStates : Obligations.SwitchFindsLockAndWaitStates := by
  unfold Obligations.SwitchFindsLockAndWaitStates
  intro s h hu
  have hp : s.phase = phMemoryTimingSet := h.phase_at hu (by decide)
  have hcr : s.cr = crLocked s.params := h.locked (by rw [hp]; decide)
  have hmtcr : s.mtcr = mtWord s.params := h.timed (by rw [hp]; decide)
  have hcfgr : s.cfgr = cfgInitWord s.params := h.configured (.inr (by rw [hp]; decide))
  obtain ⟨on, lock, -⟩ := crLocked_fields h.wf
  rw [hcr, hmtcr]
  exact ⟨on, lock, mtWord_ws_toNat h.wf, mtWord_pfEn h.wf, hcfgr⟩

/-! ### The clocks from the switch on -/

/-- The two codes of the APB1 divider differ, and so do those of the ADC divider (00_scope.md R7 P3). -/
theorem divider_codes_ne {p : Params} (wf : p.wellFormed = true) :
    p.enc.apb1Div1 ≠ p.enc.apb1Div2 ∧ p.enc.adcDiv2 ≠ p.enc.adcDiv6 := by
  simp only [Params.wellFormed, Enc.ok, Bool.and_eq_true, bne_iff_ne, ne_eq] at wf
  simp only [ne_eq, wf, not_false_eq_true, and_self]

theorem ahbDivisor_div1 (e : Enc) : ahbDivisor e e.ahbDiv1 = some 1 := if_pos rfl

theorem apb1Divisor_div2 {p : Params} (wf : p.wellFormed = true) :
    apb1Divisor p.enc p.enc.apb1Div2 = some 2 :=
  (if_neg (divider_codes_ne wf).1.symm).trans (if_pos rfl)

theorem apb2Divisor_div1 (e : Enc) : apb2Divisor e e.apb2Div1 = some 1 := if_pos rfl

theorem adcDivisor_div6 {p : Params} (wf : p.wellFormed = true) :
    adcDivisor p.enc p.enc.adcDiv6 = some 6 :=
  (if_neg (divider_codes_ne wf).2.symm).trans (if_pos rfl)

/-- The system clock is the output of the locked multiplier. -/
theorem State.Inv.sysclk_switched {s : State} (h : s.Inv) (hp : 4 ≤ s.phase.toNat) : s.sysclk = some 72 := by
  have hcr : s.cr = crLocked s.params := h.locked (by omega)
  obtain ⟨on, lock, -⟩ := crLocked_fields h.wf
  obtain ⟨sysSrc, mulSrc, mulFact⟩ := cfgSwitchWord_fields h.wf
  rw [← hcr] at on lock
  rw [← h.switched hp] at sysSrc mulSrc mulFact
  have notInt : ¬(s.params.layout.sysSrc.get s.cfgr = s.params.enc.sysSrcInt ∧
      s.params.layout.ioscEn.get s.cr = 1) := fun hi =>
    s.params.sysSrc_codes h.wf (hi.1.symm.trans sysSrc)
  calc s.sysclk = s.mulOut := (if_neg notInt).trans (if_pos sysSrc)
    _ = some (s.params.targetUnits : ℚ) := if_pos ⟨on, lock, mulSrc, mulFact⟩
    _ = some 72 := by rw [s.params.targetUnits_eq h.wf]; rfl

/-- Settles O50: each bus clock is the system clock divided as `CFG_SWITCH_WORD` says. -/
theorem clocksAfterTheSwitch : Obligations.ClocksAfterTheSwitch := by
  unfold Obligations.ClocksAfterTheSwitch
  intro s h hp
  have hcfgr : s.cfgr = cfgSwitchWord s.params := h.switched hp
  obtain ⟨ahbDiv, apb1Div, apb2Div, adcDiv⟩ := cfgSwitchWord_dividers h.wf
  have target := s.params.targetUnits_eq h.wf
  have sys : s.sysclk = some 72 := h.sysclk_switched hp
  have ahb : s.ahb = some 72 := by
    simp [State.ahb, sys, hcfgr, ahbDiv, ahbDivisor_div1, divided]
  have apb1 : s.apb1 = some 36 := by
    norm_num [State.apb1, sys, hcfgr, apb1Div, apb1Divisor_div2 h.wf, divided]
  have apb2 : s.apb2 = some 72 := by
    simp [State.apb2, sys, hcfgr, apb2Div, apb2Divisor_div1, divided]
  have adc : s.adcclk = some 12 := by
    norm_num [State.adcclk, apb2, hcfgr, adcDiv, adcDivisor_div6 h.wf, divided]
  exact ⟨sys, ahb, apb1, apb2, adc, by rw [bus1Freq, target], by rw [bus2Freq, target]⟩

end Sys2Proof.Machine
end

section
/-! PROOFS. Where both invariants hold, nothing stops the machine (70_reset_and_hazards.md R274). -/

namespace Sys2Proof.Machine

/-- Only the switch selects the multiplier as the system clock. -/
theorem State.Inv.switched_of_onMultiplier {s : State} (h : s.Inv) (on : s.onMultiplier = true) :
    4 ≤ s.phase.toNat := by
  have source : s.params.layout.sysSrc.get s.cfgr = s.params.enc.sysSrcMul := by
    simpa [State.onMultiplier] using on
  have codes := s.params.sysSrc_codes h.wf
  have notFresh : s.phase ≠ phReset := fun hp => codes ((h.fresh hp).2.1.symm.trans source)
  have notConfigured : ¬(1 ≤ s.phase.toNat ∧ s.phase.toNat ≤ 3) := fun hp => by
    rw [h.configured (.inr hp), (cfgInitWord_fields h.wf).1] at source
    exact codes source
  have later : ∀ ph : BitVec 3, ph ≠ phReset → ¬(1 ≤ ph.toNat ∧ ph.toNat ≤ 3) → 4 ≤ ph.toNat := by
    decide
  exact later _ notFresh notConfigured

/-- `HZ_FETCH` does not hold: the wait states are raised before the switch. -/
theorem State.Inv.hzFetch_eq_false {s : State} (h : s.Inv) : s.hzFetch = false := by
  cases on : s.onMultiplier with
  | false => simp [State.hzFetch, on]
  | true =>
    have timed := h.timed (Nat.le_of_succ_le (h.switched_of_onMultiplier on))
    simp [State.hzFetch, timed, mtWord_ws_toNat h.wf]

/-- `HZ_UNLOCKED` does not hold: the multiplier is locked before the switch. -/
theorem State.Inv.hzUnlocked_eq_false {s : State} (h : s.Inv) : s.hzUnlocked = false := by
  cases on : s.onMultiplier with
  | false => simp [State.hzUnlocked, on]
  | true =>
    have locked := h.locked (Nat.le_trans (by decide) (h.switched_of_onMultiplier on))
    simp [State.hzUnlocked, locked, crLocked_fields h.wf]

theorem State.Inv.hazard_eq_none {s : State} (h : s.Inv) (ht : s.TraceInv) : s.hazard = none := by
  simp [State.hazard, h.hzFetch_eq_false, h.hzUnlocked_eq_false, ht.noEarlyGate, ht.noCrRmw]

theorem State.Inv.stopped_eq_none {s : State} (h : s.Inv) (ht : s.TraceInv) : s.stopped = none := by
  have named : ∀ u ph, placeOk u ph = true → ph.toNat ≤ 5 := by decide
  simp only [State.stopped, h.hazard_eq_none ht, if_pos (named _ _ h.place)]

end Sys2Proof.Machine
end

section
/-! PROOFS. The Peripheral Gate Controller (43_peripheral_gate.md R182 to R192): the gate micro-operations, the
release of the USB reset, and that the order of the five gates does not matter. -/

namespace Sys2Proof.Machine

/-! ### What a gate sets -/

/-- The bits a gate sets in enable register `g` are those of its peripherals (43_peripheral_gate.md R189). -/
theorem gateBits_getLsbD {p : Params} (wf : p.wellFormed = true) (g : Fin 3) (c : Category) (i : Fin 32) :
    (gateBits p g c).getLsbD i.val =
      (peripheralsOf c).any fun q => decide (gateLoc p.gateMap q = ⟨g, i⟩) := by
  have loc : ∀ q ∈ peripheralsOf c, gateLoc p.gateMap q = ⟨g, i⟩ ↔
      gateReg p.gateMap c = g ∧ i.val = (gateLoc p.gateMap q).bit.val := fun q hq => by
    rw [← gateLoc_reg wf hq, ← Fin.ext_iff, eq_comm (a := i)]
    exact EnableBit.mk.injEq .. ▸ Iff.rfl
  rw [Bool.eq_iff_iff, List.any_eq_true]
  unfold gateBits
  split
  next here =>
    rw [gateMask_getLsbD _ _ i.isLt, List.any_eq_true]
    exact exists_congr fun q => and_congr_right fun hq => by simp [loc q hq, here]
  next elsewhere =>
    have none : ∀ q ∈ peripheralsOf c, gateLoc p.gateMap q ≠ ⟨g, i⟩ :=
      fun q hq e => elsewhere ((loc q hq).mp e).1
    simpa using none

/-- Everything the read-modify-write of a gate does, enable register by enable register. -/
theorem State.enableClocks_eq (s : State) (c : Category) :
    s.enableClocks c = { s with
      penr0 := s.penr0 ||| gateBits s.params 0 c
      penr1 := s.penr1 ||| gateBits s.params 1 c
      penr2 := s.penr2 ||| gateBits s.params 2 c
      t := s.reg (gateTarget s.params c)
      trace := s.trace ++ [.rd (gateTarget s.params c) (s.reg (gateTarget s.params c)),
        .wr (gateTarget s.params c) (s.reg (gateTarget s.params c) ||| gateMask s.params.gateMap c)] } := by
  rw [State.enableClocks, s.readModifyWrite_eq _ (gateTarget_ne_cr _ c)]
  unfold gateTarget gateBits
  generalize gateReg s.params.gateMap c = g
  match g with
  | 0 | 1 | 2 => simp [penr, State.setReg, State.reg]

/-! ### One gate -/

/-- Settles O17: the read-modify-write of the category's enable register, and the next code. -/
theorem gateEnablesItsCategory : Obligations.GateEnablesItsCategory := by
  unfold Obligations.GateEnablesItsCategory
  intro s c hb hu more
  have ran := State.gate_next.mpr ⟨⟨hb, hu⟩, rfl⟩
  rw [if_neg more, State.enableClocks, s.readModifyWrite_eq _ (gateTarget_ne_cr _ c)] at ran
  exact (exec_gateInstr c s).trans ran

/-- Settles O18: the read-modify-write of the category's enable register, and the completion. -/
theorem fifthGateCompletesTheBringUp : Obligations.FifthGateCompletesTheBringUp := by
  unfold Obligations.FifthGateCompletesTheBringUp
  intro s c hb h9 slot
  have ran := State.gate_next.mpr ⟨⟨hb, h9.trans slot.symm⟩, rfl⟩
  rw [if_pos h9, State.enableClocks, s.readModifyWrite_eq _ (gateTarget_ne_cr _ c)] at ran
  exact (exec_gateInstr c s).trans ran

/-- Settles O19: the gate's write sets the bits of its peripherals, and the rest of the gate moves the
sequencer only. -/
theorem gateChangesOnlyItsOwnBits : Obligations.GateChangesOnlyItsOwnBits := by
  unfold Obligations.GateChangesOnlyItsOwnBits
  intro s t c wf h
  rw [exec_gateInstr] at h
  obtain ⟨-, rfl⟩ := State.gate_next.mp h
  have bits : ∀ (g : Fin 3) (i : Fin 32), ((s.enableClocks c).reg (penr g)).getLsbD i.val =
      ((s.reg (penr g)).getLsbD i.val ||
        (peripheralsOf c).any fun q => decide (gateLoc s.params.gateMap q = ⟨g, i⟩)) := fun g i => by
    rw [s.enableClocks_penr c g, BitVec.getLsbD_or, gateBits_getLsbD wf]
  split <;> exact ⟨by simpa using bits, by simp [s.enableClocks_eq c]⟩

/-! ### The release of the USB reset -/

/-- What USB_RST_REL leaves in its reset register. -/
def State.usbReleased (s : State) : Word := s.reg (usbRstTarget s.params) &&& ~~~usbRstMask s.params

theorem State.usbReleased_getLsbD (s : State) (i : Fin 32) : s.usbReleased.getLsbD i.val =
    if i = s.params.usbRst.bit then false else (s.reg (usbRstTarget s.params)).getLsbD i.val := by
  rw [State.usbReleased, BitVec.getLsbD_and, BitVec.getLsbD_not, usbRstMask, bitMask_getLsbD _ i.isLt]
  by_cases bit : i = s.params.usbRst.bit
  · simp [bit]
  · simp [bit, Fin.val_inj]

theorem execUsbRstRel_released {s t : State} (h : exec .usbRstRel s = .next t) :
    t.reg (usbRstTarget s.params) = s.usbReleased := by
  obtain ⟨-, rfl⟩ := execUsbRstRel_next.mp h
  exact (State.finish_reg ..).trans (s.readModifyWrite_reg_self _ (usbRstTarget_ne_cr _))

/-- Settles O20: the mask of the write has the one bit. -/
theorem usbResetReleaseClearsOneBit : Obligations.UsbResetReleaseClearsOneBit := by
  unfold Obligations.UsbResetReleaseClearsOneBit
  intro s hb hu
  have ran := execUsbRstRel_next.mpr ⟨⟨hb, hu⟩, rfl⟩
  have released := execUsbRstRel_released ran
  refine ⟨_, ran, ?_, fun i => ?_⟩
  · rw [released, s.readModifyWrite_eq _ (usbRstTarget_ne_cr _)]
    rfl
  · rw [released]
    exact s.usbReleased_getLsbD i

/-- Where the bit is cleared already, a release clears nothing more. -/
theorem State.usbReleased_of_released {s t : State} (params : t.params = s.params)
    (released : t.reg (usbRstTarget s.params) = s.usbReleased) : t.usbReleased = s.usbReleased := by
  rw [State.usbReleased, params, released, State.usbReleased, BitVec.and_assoc, BitVec.and_self]

/-- Settles O21: the second release writes what the first has left. -/
theorem usbResetReleaseIsIdempotent : Obligations.UsbResetReleaseIsIdempotent := by
  unfold Obligations.UsbResetReleaseIsIdempotent
  intro s t h
  obtain ⟨params, -⟩ := operationsWriteOnlyTheirRegister s t _ h
  have first := execUsbRstRel_released h
  change ∃ u, exec .usbRstRel (t.start 10) = .next u ∧ _
  obtain ⟨u, again⟩ : ∃ u, exec .usbRstRel (t.start 10) = .next u :=
    ⟨_, execUsbRstRel_next.mpr ⟨⟨rfl, rfl⟩, rfl⟩⟩
  have second : u.reg (usbRstTarget s.params) = s.usbReleased := by
    rw [← State.usbReleased_of_released (t := t.start 10) params ((t.start_reg ..).trans first),
      ← execUsbRstRel_released again, State.start_params, params]
  refine ⟨u, again, fun x => ?_, ?_⟩
  · by_cases hx : x = usbRstTarget s.params
    · rw [hx, second, first]
    · have other : writtenReg (t.start 10).params .usbRstRel ≠ some x := fun e =>
        hx ((Option.some.inj e).symm.trans (congrArg usbRstTarget params))
      rw [exec_reg_ne again other, State.start_reg]
  · rw [second, s.usbReleased_getLsbD, if_pos rfl]

/-! ### Another gate order -/

/-- The state under another gate order, every other parameter the same. -/
def State.withGateOrder (s : State) (o : GateOrder) : State :=
  { s with params := { s.params with gateOrder := o } }

theorem Params.wellFormed_withGateOrder {p : Params} (wf : p.wellFormed = true) {o : GateOrder}
    (ho : o.isPermutation = true) : { p with gateOrder := o }.wellFormed = true := by
  simp only [Params.wellFormed, Bool.and_eq_true] at wf ⊢
  obtain ⟨⟨⟨rest, -⟩, multiplier⟩, numbers⟩ := wf
  exact ⟨⟨⟨rest, ho⟩, multiplier⟩, numbers⟩

theorem State.Inv.withGateOrder {s : State} (h : s.Inv) {o : GateOrder} (ho : o.isPermutation = true) :
    (s.withGateOrder o).Inv :=
  { h with wf := Params.wellFormed_withGateOrder h.wf ho }

/-- The reader of the trace knows the switch by its word, whatever the other parameters are. -/
theorem SwitchMark.next_congr {p q : Params} (same : cfgSwitchWord p = cfgSwitchWord q) :
    SwitchMark.next p = SwitchMark.next q := by
  unfold SwitchMark.next
  rw [same]

theorem switchMarkFrom_congr {p q : Params} (same : cfgSwitchWord p = cfgSwitchWord q) (m : SwitchMark)
    (tr : List Event) : switchMarkFrom p m tr = switchMarkFrom q m tr := by
  induction tr generalizing m with
  | nil => rfl
  | cons e es ih => simp only [switchMarkFrom, SwitchMark.next_congr same, ih]

theorem earlyGateFrom_congr {p q : Params} (same : cfgSwitchWord p = cfgSwitchWord q) (m : SwitchMark)
    (tr : List Event) : earlyGateFrom p m tr = earlyGateFrom q m tr := by
  induction tr generalizing m with
  | nil => rfl
  | cons e es ih => simp only [earlyGateFrom, SwitchMark.next_congr same, ih]

theorem State.TraceInv.withGateOrder {s : State} (h : s.TraceInv) (o : GateOrder) :
    (s.withGateOrder o).TraceInv :=
  have switch : cfgSwitchWord (s.withGateOrder o).params = cfgSwitchWord s.params := rfl
  { h with
    noEarlyGate := (earlyGateFrom_congr switch _ _).trans h.noEarlyGate
    begun := fun hu => (switchMarkFrom_congr switch _ _).trans (h.begun hu)
    mark := fun hp => (switchMarkFrom_congr switch _ _).trans (h.mark hp) }

/-! ### The five gates -/

/-- A run keeps both invariants. -/
theorem State.Inv.run {s t : State} (hi : s.Inv) (ht : s.TraceInv) {n : Nat} (h : s.run n = .next t) :
    t.Inv ∧ t.TraceInv := by
  induction n generalizing s with
  | zero => cases h; exact ⟨hi, ht⟩
  | succ n ih =>
    unfold State.run at h
    split at h
    next r hr =>
      exact ih (everyStepKeepsTheStateInvariant _ _ hi hr) (everyStepKeepsTheTraceInvariant _ _ hi ht hr) h
    · cases h
    · cases h

/-- At the code of a gate, the step is the gate: nothing stops it, and ENV has locked before. -/
theorem State.Inv.step_gate {s : State} (hi : s.Inv) (ht : s.TraceInv) {c : Category}
    (hu : s.upc = gateUpc s.params.gateOrder c) : step s = .next
      (if s.upc = 9 then (s.tick.enableClocks c).complete else (s.tick.enableClocks c).goto (s.upc + 1)) := by
  obtain ⟨hp, -⟩ := placeOk_gate s.upc s.phase (hu ▸ gateUpc_bounds ..) hi.place
  have notIdle : ∀ u : BitVec 4, u.toNat ≤ 9 → u ≠ upcIdle := by decide
  have hb : s.busy = true := by
    simpa using hi.idle.not.mpr (notIdle _ (hu ▸ (gateUpc_bounds ..).2))
  have noEnv : s.envActs = false :=
    State.envActs_of_not_enabled (State.lockEnabled_locked hi.wf (hi.locked (by rw [hp]; decide)))
  have named : decode s.params.gateOrder (.uop s.upc) = gateInstr c := by
    rw [hu, ← encode_gateInstr]
    exact decodeOfEncodeIsTheInstruction _ (s.params.gateOrder_nodup hi.wf) _
  rw [step_run (paramsRefusal_none hi.wf) (hi.stopped_eq_none ht) noEnv, State.fetch_busy hb, named,
    State.advance_busy hb, exec_gateInstr]
  exact State.gate_next.mpr ⟨⟨hb, hu⟩, rfl⟩

/-- The state `n` gates on, in which they have set `bits` in the enable registers. -/
def State.gated (s : State) (n : Nat) (bits : Fin 3 → Word) (latch : Word) (tr : List Event) : State :=
  { s with
    penr0 := s.penr0 ||| bits 0
    penr1 := s.penr1 ||| bits 1
    penr2 := s.penr2 ||| bits 2
    upc := s.upc + BitVec.ofNat 4 n
    t := latch
    trace := tr
    draws := s.draws + n }

theorem State.gated_penr (s : State) (n : Nat) (bits : Fin 3 → Word) (latch : Word) (tr : List Event)
    (g : Fin 3) : (s.gated n bits latch tr).reg (penr g) = s.reg (penr g) ||| bits g := by
  match g with
  | 0 | 1 | 2 => rfl

/-- One more gate sets its bits too. -/
theorem State.gated_gate (s : State) (n : Nat) (bits : Fin 3 → Word) (latch : Word) (tr : List Event)
    (c : Category) : ∃ latch' tr',
    ((s.gated n bits latch tr).tick.enableClocks c).goto (s.upc + BitVec.ofNat 4 n + 1) =
      s.gated (n + 1) (fun g => bits g ||| gateBits s.params g c) latch' tr' := by
  rw [State.enableClocks_eq]
  simp [State.gated, State.tick, State.goto, BitVec.or_assoc, BitVec.add_assoc, Nat.add_assoc,
    BitVec.ofNat_add]

/-- `n` steps are `n` gates, which set `bits`. -/
def State.RunsGates (s : State) (n : Nat) (bits : Fin 3 → Word) : Prop :=
  ∃ latch tr, s.run n = .next (s.gated n bits latch tr)

/-- The category in the slot after `n` gates is gated next; at `upc` 9 that completes the bring-up (R188). -/
theorem State.RunsGates.step {s : State} {n : Nat} {bits : Fin 3 → Word} (h : s.RunsGates n bits)
    (hi : s.Inv) (ht : s.TraceInv) {c : Category} (hu : s.upc = 5)
    (slot : gateUpc s.params.gateOrder c = 5 + BitVec.ofNat 4 n) :
    ∃ latch tr, s.run (n + 1) = .next
      (let t := s.gated (n + 1) (fun g => bits g ||| gateBits s.params g c) latch tr
      if 5 + BitVec.ofNat 4 n = (9 : BitVec 4) then t.complete else t) := by
  obtain ⟨latch, tr, ran⟩ := h
  obtain ⟨hi', ht'⟩ := hi.run ht ran
  obtain ⟨latch', tr', gate⟩ := s.gated_gate n bits latch tr c
  refine ⟨latch', tr', ?_⟩
  have code : (s.gated n bits latch tr).upc = 5 + BitVec.ofNat 4 n := hu ▸ rfl
  rw [← gate, State.run_add ran, State.run, hi'.step_gate ht' (code.trans slot.symm), code, hu]
  rfl

theorem State.RunsGates.next {s : State} {n : Nat} {bits : Fin 3 → Word} (h : s.RunsGates n bits)
    (hi : s.Inv) (ht : s.TraceInv) {c : Category} (hu : s.upc = 5)
    (slot : gateUpc s.params.gateOrder c = 5 + BitVec.ofNat 4 n)
    (more : 5 + BitVec.ofNat 4 n ≠ (9 : BitVec 4)) :
    s.RunsGates (n + 1) fun g => bits g ||| gateBits s.params g c := by
  simpa only [State.RunsGates, if_neg more] using h.step hi ht hu slot

/-- From the code of the first gate, five steps complete the bring-up, with the enable bits of all categories
set. -/
theorem State.Inv.run_gates {s : State} (hi : s.Inv) (ht : s.TraceInv) (hu : s.upc = 5) :
    ∃ latch tr, s.run 5 = .next (s.gated 5 (enabledBits s.params) latch tr).complete := by
  have order := s.params.gateOrder_nodup hi.wf
  obtain ⟨first, second, third, fourth, fifth⟩ := gateUpc_slots order
  have zero : s.RunsGates 0 fun _ => 0 := ⟨s.t, s.trace, by simp [State.run, State.gated]⟩
  have one := zero.next hi ht hu first (by decide)
  have two := one.next hi ht hu second (by decide)
  have three := two.next hi ht hu third (by decide)
  have four := three.next hi ht hu fourth (by decide)
  obtain ⟨latch, tr, five⟩ := four.step hi ht hu fifth
  refine ⟨latch, tr, five.trans ?_⟩
  simp [gateBits_order hi.wf order]

/-- Settles O53: under either order, five steps set the bits of all categories. -/
theorem gateOrderDoesNotMatter : Obligations.GateOrderDoesNotMatter := by
  unfold Obligations.GateOrderDoesNotMatter
  intro s o hi ht hu ho
  obtain ⟨latch, tr, ran⟩ := hi.run_gates ht hu
  obtain ⟨latch', tr', ran'⟩ := (hi.withGateOrder ho).run_gates (ht.withGateOrder o) hu
  exact ⟨_, _, ran, ran', rfl, fun g => (State.complete_reg ..).trans (s.gated_penr ..)⟩

end Sys2Proof.Machine
end

section
/-! PROOFS. The commands of the port (44_commands.md R200 to R208), and that a step runs the fetched operation
(R211). -/

namespace Sys2Proof.Machine

/-! ### INIT and REL_USB -/

/-- Settles O5: the phase `Reset` accepts. -/
theorem initFromResetStartsTheSequencer : Obligations.InitFromResetStartsTheSequencer := by
  unfold Obligations.InitFromResetStartsTheSequencer
  intro s hb hp
  exact execInit_next.mpr ⟨hb, (if_pos hp).symm⟩

/-- Settles O6: any other phase refuses. -/
theorem initAfterResetIsRefused : Obligations.InitAfterResetIsRefused := by
  unfold Obligations.InitAfterResetIsRefused
  intro s hb hp
  exact execInit_next.mpr ⟨hb, (if_neg hp).symm⟩

/-- Settles O8: REL_USB looks at `busy` alone. -/
theorem releaseUsbStartsTheReleaseInAnyPhase : Obligations.ReleaseUsbStartsTheReleaseInAnyPhase := by
  unfold Obligations.ReleaseUsbStartsTheReleaseInAnyPhase
  intro s hb
  exact execRelUsb_next.mpr ⟨hb, rfl⟩

/-! ### The frequency commands -/

/-- Everything the answer of a frequency command does, its two events together. -/
theorem State.respond_eq (s : State) (c : Command) (v : Word) :
    s.respond c v = { s with resp := v, trace := s.trace ++ [.cmd c true, .resp v] } := by
  simp [State.respond, State.record]

/-- A constant that fits 32 bits is answered as it is. -/
theorem freqWord_toNat {n : Nat} (h : n < 2 ^ 32) : (freqWord n).toNat = n := by
  rw [freqWord, if_pos h, BitVec.toNat_ofNat, Nat.mod_eq_of_lt h]

theorem bus1Freq_eq {p : Params} (wf : p.wellFormed = true) : bus1Freq p = 36 * p.freqUnit := by
  rw [bus1Freq, p.targetUnits_eq wf]

theorem bus2Freq_eq {p : Params} (wf : p.wellFormed = true) : bus2Freq p = 72 * p.freqUnit := by
  rw [bus2Freq, p.targetUnits_eq wf]

/-- Settles O7: the two answers, and their constants at the target of 72 units. -/
theorem frequencyCommandsAnswerTheConstants : Obligations.FrequencyCommandsAnswerTheConstants := by
  unfold Obligations.FrequencyCommandsAnswerTheConstants
  intro s wf hb
  refine ⟨?_, ?_, fun fits => ?_, fun fits => ?_⟩
  · exact execGetBus1_next.mpr ⟨hb, (s.respond_eq ..).symm⟩
  · exact execGetBus2_next.mpr ⟨hb, (s.respond_eq ..).symm⟩
  · rw [bus1Freq_eq wf, freqWord_toNat fits]
  · rw [bus2Freq_eq wf, freqWord_toNat fits]

/-! ### The closed port -/

theorem State.whenIdle_busy {s : State} (r : Result) (hb : s.busy = true) :
    s.whenIdle r = .fault .portClosed :=
  if_neg (by simp [hb])

/-- Settles O9: each command is enabled when idle only. -/
theorem portIsClosedWhileBusy : Obligations.PortIsClosedWhileBusy := by
  unfold Obligations.PortIsClosedWhileBusy
  intro s i command hb
  cases i with
  | init | getBus1 | getBus2 | relUsb => exact State.whenIdle_busy _ hb
  | _ => cases command

/-! ### The step -/

/-- Everything that is done around an operation. -/
theorem State.advance_eq (s : State) :
    s.advance = { s with
      draws := s.draws + 1, port := if s.busy then s.port else s.port.tail } := by
  unfold State.advance
  split <;> rfl

/-- Settles O29: the turn is that of the fetched operation. -/
theorem stepRunsTheFetchedOperation : Obligations.StepRunsTheFetchedOperation := by
  unfold Obligations.StepRunsTheFetchedOperation
  intro s i wf running noEnv named
  rw [step_run (paramsRefusal_none wf) running noEnv, named, s.advance_eq]

end Sys2Proof.Machine
end

section
/-! PROOFS. Where both invariants hold a step is taken (44_commands.md R211, R212), and what INIT does as a
whole (R201, 40_clock_multiplier.md R146, 43_peripheral_gate.md R188): three steps lead to the poll, each poll
that reads the lock as 0 to the next one, four steps from the lock to the gates, and the gates to the end. -/

namespace Sys2Proof.Machine

/-! ### A step under the invariants -/

theorem State.capReached_of_uncapped {s : State} (h : s.params.pollCap = none) : s.capReached = false := by
  simp [State.capReached, h]

/-- Settles O46: no hazard, no reserved code and no poll cap stops the machine. -/
theorem machineNeverStops : Obligations.MachineNeverStops := by
  unfold Obligations.MachineNeverStops
  intro s hi ht uncapped
  have codes : ∀ u ph, placeOk u ph = true → u.toNat ≤ 10 ∨ u = upcIdle := by decide
  exact step_enabled hi.wf (hi.stopped_eq_none ht) (State.capReached_of_uncapped uncapped)
    fun _ => codes _ _ hi.place

/-- ENV acts at the poll only. -/
theorem State.Inv.envActs_eq_false {s : State} (h : s.Inv) (hu : s.upc ≠ 2) : s.envActs = false := by
  have poll : ∀ u, placeOk u phOscillatorsStarting = true → u = 2 := by decide
  exact Bool.eq_false_iff.mpr fun acts =>
    hu (poll _ ((h.at_lockEnabled (State.lockEnabled_of_envActs acts)).1 ▸ h.place))

/-- The idle block issues the first command at its port. -/
theorem State.Inv.step_command {s : State} (hi : s.Inv) (ht : s.TraceInv) (hb : s.busy = false)
    {c : BitVec 2} {rest : List (BitVec 2)} (hport : s.port = c :: rest) :
    step s = exec (decodeCmd c).instr { s.tick with port := rest } := by
  have rests := hi.envActs_eq_false (by rw [hi.idle.mp hb]; decide)
  rw [step_run (paramsRefusal_none hi.wf) (hi.stopped_eq_none ht) rests, State.fetch_command hb hport,
    State.advance_idle hb, hport]
  rfl

/-- Where ENV does not act, SEQ runs the micro-operation of `upc`. -/
theorem State.Inv.step_uop {s : State} (hi : s.Inv) (ht : s.TraceInv) (rests : s.envActs = false)
    {u : BitVec 4} (hu : s.upc = u) (notIdle : u ≠ upcIdle) :
    s.busy = true ∧ step s = exec (decodeUop s.params.gateOrder u) s.tick := by
  have hb : s.busy = true := by simpa using hi.idle.not.mpr (hu ▸ notIdle)
  rw [step_run (paramsRefusal_none hi.wf) (hi.stopped_eq_none ht) rests, State.fetch_busy hb,
    State.advance_busy hb, hu]
  exact ⟨hb, rfl⟩

theorem State.Inv.step_cfgInit {s : State} (hi : s.Inv) (ht : s.TraceInv) (hu : s.upc = 0) :
    step s = .next ((s.tick.busWrite32 .cfgr (cfgInitWord s.params)).goto 1) := by
  obtain ⟨hb, run⟩ := hi.step_uop ht (hi.envActs_eq_false (by rw [hu]; decide)) hu (by decide)
  exact run.trans (hi.tick.execCfgInit_next.mpr ⟨⟨hb, hu⟩, rfl⟩)

/-- CR_FULL finds the multiplier off and leaves it unlocked. -/
theorem State.Inv.step_crFull {s : State} (hi : s.Inv) (ht : s.TraceInv) (hu : s.upc = 1) :
    step s = .next { s.tick with
      cr := crWord s.params, upc := 2, phase := phOscillatorsStarting,
      trace := s.trace ++ [.wr .cr (crWord s.params)] } := by
  obtain ⟨hb, run⟩ := hi.step_uop ht (hi.envActs_eq_false (by rw [hu]; decide)) hu (by decide)
  have stored : s.tick.stored .cr (crWord s.params) = crWord s.params :=
    State.stored_crWord (s := s.tick) hi.wf (hi.lockOff (hi.fresh (hi.phase_at hu (by decide))).1)
  rw [run.trans (execCrFull_next.mpr ⟨⟨hb, hu⟩, rfl⟩), State.busWrite32_eq, State.tick_params, stored]
  rfl

/-- A poll that reads the lock as 0, where ENV does not act and no cap stops the run. -/
theorem State.Inv.step_pollUnlocked {s : State} (hi : s.Inv) (ht : s.TraceInv) (hu : s.upc = 2)
    (uncapped : s.params.pollCap = none) (unlocked : s.params.layout.mulLock.get s.cr ≠ 1)
    (rests : s.envActs = false) :
    step s = .next { s.tick with
      t := s.cr, polls := s.polls + 1, upc := 2, trace := s.trace ++ [.rd .cr s.cr] } := by
  obtain ⟨hb, run⟩ := hi.step_uop ht rests hu (by decide)
  rw [run.trans (execLockPoll_next.mpr ⟨⟨hb, hu⟩, State.capReached_of_uncapped uncapped, rfl⟩),
    State.pollOnce_unlocked (s := s.tick) unlocked]
  rfl

/-- A poll that reads the lock as 1: ENV has nothing more to do. -/
theorem State.Inv.step_pollLocked {s : State} (hi : s.Inv) (ht : s.TraceInv) (hu : s.upc = 2)
    (uncapped : s.params.pollCap = none) (locked : s.params.layout.mulLock.get s.cr = 1) :
    step s = .next { s.tick with
      t := s.cr, polls := s.polls + 1, upc := 3, phase := phMultiplierLocked,
      trace := s.trace ++ [.rd .cr s.cr] } := by
  have notEnabled : s.lockEnabled = false := by simp [State.lockEnabled, locked]
  obtain ⟨hb, run⟩ := hi.step_uop ht (State.envActs_of_not_enabled notEnabled) hu (by decide)
  rw [run.trans (execLockPoll_next.mpr ⟨⟨hb, hu⟩, State.capReached_of_uncapped uncapped, rfl⟩),
    State.pollOnce_locked (s := s.tick) locked]
  rfl

theorem State.Inv.step_mtSet {s : State} (hi : s.Inv) (ht : s.TraceInv) (hu : s.upc = 3) :
    step s = .next (((s.tick.busWrite32 .mtcr (mtWord s.params)).goto 4).enter phMemoryTimingSet) := by
  obtain ⟨hb, run⟩ := hi.step_uop ht (hi.envActs_eq_false (by rw [hu]; decide)) hu (by decide)
  exact run.trans (execMtSet_next.mpr ⟨⟨hb, hu⟩, rfl⟩)

theorem State.Inv.step_cfgSwitch {s : State} (hi : s.Inv) (ht : s.TraceInv) (hu : s.upc = 4) :
    step s = .next (((s.tick.busWrite32 .cfgr (cfgSwitchWord s.params)).goto 5).enter phClockSwitched) := by
  obtain ⟨hb, run⟩ := hi.step_uop ht (hi.envActs_eq_false (by rw [hu]; decide)) hu (by decide)
  exact run.trans (hi.tick.execCfgSwitch_next.mpr ⟨⟨hb, hu⟩, rfl⟩)

/-! ### Runs under the invariants -/

/-- A run goes on with the step from where it has come to; both invariants hold there. -/
theorem State.Inv.run_succ {s t u : State} {k : Nat} (hi : s.Inv) (ht : s.TraceInv) (h : s.run k = .next t)
    (hstep : t.Inv → t.TraceInv → step t = .next u) : s.run (k + 1) = .next u := by
  obtain ⟨hi', ht'⟩ := hi.run ht h
  rw [State.run_add h, State.run, hstep hi' ht']
  rfl

/-! ### To the poll -/

/-- Where an INIT issued in `s` stands when it has polled `j` times without seeing the lock. -/
def State.atPoll (s : State) (j : Nat) (latch : Word) (tr : List Event) : State :=
  { s with
    cr := crWord s.params
    cfgr := cfgInitWord s.params
    upc := 2
    phase := phOscillatorsStarting
    busy := true
    t := latch
    polls := j
    trace := tr
    port := s.port.tail
    draws := s.draws + (j + 3) }

/-- INIT and `j` polls that read the lock as 0 take `j + 3` steps. -/
def State.RunsToPoll (s : State) (j : Nat) : Prop :=
  ∃ latch tr, s.run (j + 3) = .next (s.atPoll j latch tr)

/-- INIT, CFG_INIT and CR_FULL lead to the first poll. -/
theorem State.Inv.runsToPoll {s : State} (hi : s.Inv) (ht : s.TraceInv) (hb : s.busy = false)
    (hp : s.phase = phReset) {rest : List (BitVec 2)} (hport : s.port = 0b00#2 :: rest) :
    s.RunsToPoll 0 := by
  have one := hi.run_succ ht (k := 0) rfl fun _ _ =>
    (hi.step_command ht hb hport).trans (execInit_next.mpr ⟨hb, (if_pos hp).symm⟩)
  have two := hi.run_succ ht one fun hi' ht' => hi'.step_cfgInit ht' rfl
  have three := hi.run_succ ht two fun hi' ht' => hi'.step_crFull ht' rfl
  have tail : s.port.tail = rest := by rw [hport]; rfl
  have polls : s.polls = 0 := (hi.fresh hp).2.2
  refine ⟨s.t, s.trace ++ [Event.cmd .init true, Event.wr .cfgr (cfgInitWord s.params),
    Event.wr .cr (crWord s.params)], three.trans (congrArg _ ?_)⟩
  simp [State.atPoll, State.goto, State.busWrite32, State.setReg, State.stored, State.record, State.start,
    State.tick, tail, polls]

theorem crWord_unlocked {p : Params} (wf : p.wellFormed = true) : p.layout.mulLock.get (crWord p) ≠ 1 := by
  rw [(crWord_fields wf).2.2.2]
  decide

/-- A poll in which ENV has not yet acted reads the lock as 0. -/
theorem State.RunsToPoll.next {s : State} {j : Nat} (h : s.RunsToPoll j) (hi : s.Inv) (ht : s.TraceInv)
    (uncapped : s.params.pollCap = none)
    (rests : ∀ u, s.run (j + 3) = .next u → u.envActs = false) : s.RunsToPoll (j + 1) := by
  obtain ⟨latch, tr, ran⟩ := h
  have more := hi.run_succ ht ran fun hi' ht' =>
    hi'.step_pollUnlocked ht' rfl uncapped (crWord_unlocked hi.wf) (rests _ ran)
  refine ⟨crWord s.params, tr ++ [Event.rd .cr (crWord s.params)], more.trans (congrArg _ ?_)⟩
  simp +arith [State.atPoll, State.tick]

/-- With the lock to come after `n` polls, ENV acts at the poll exactly after `n` polls. -/
theorem State.Inv.envActs_at_poll {s : State} (h : s.Inv) (hu : s.upc = 2)
    (unlocked : s.params.layout.mulLock.get s.cr ≠ 1) {n : Nat} (oracle : s.params.lockOracle = .after n)
    (uncapped : s.params.pollCap = none) : s.envActs = true ↔ s.polls = n :=
  ((lockOracleResolvesEnv s (State.capReached_of_uncapped uncapped)).1 n oracle).trans
    (and_iff_right (h.lockEnabled_at_poll hu unlocked))

/-- With the lock to come after `n` polls, the first `n` polls read it as 0. -/
theorem State.Inv.runsToPoll_of_oracle {s : State} (hi : s.Inv) (ht : s.TraceInv) (hb : s.busy = false)
    (hp : s.phase = phReset) {rest : List (BitVec 2)} (hport : s.port = 0b00#2 :: rest) {n : Nat}
    (oracle : s.params.lockOracle = .after n) (uncapped : s.params.pollCap = none) :
    ∀ j ≤ n, s.RunsToPoll j := by
  intro j hj
  induction j with
  | zero => exact hi.runsToPoll ht hb hp hport
  | succ j ih =>
    have h := ih (Nat.le_of_succ_le hj)
    refine h.next hi ht uncapped fun u hu => ?_
    obtain ⟨latch, tr, ran⟩ := h
    obtain rfl : u = s.atPoll j latch tr := next_eq_iff.mp (ran.symm.trans hu)
    have acts := (hi.run ht ran).1.envActs_at_poll rfl (crWord_unlocked hi.wf) oracle uncapped
    exact Bool.eq_false_iff.mpr (acts.not.mpr (Nat.ne_of_lt hj))

/-! ### From the lock to the gates -/

/-- Where an INIT issued in `s` stands when it has switched the clock after `j` polls. -/
def State.atGates (s : State) (j : Nat) (latch : Word) (tr : List Event) : State :=
  { s with
    cr := crLocked s.params
    cfgr := cfgSwitchWord s.params
    mtcr := mtWord s.params
    upc := 5
    phase := phClockSwitched
    busy := true
    t := latch
    polls := j
    trace := tr
    port := s.port.tail
    draws := s.draws + (j + 6) }

/-- ENV's lock, the poll that sees it, MT_SET and CFG_SWITCH lead to the gates. -/
theorem State.RunsToPoll.gates {s : State} {n : Nat} (h : s.RunsToPoll n) (hi : s.Inv) (ht : s.TraceInv)
    (oracle : s.params.lockOracle = .after n) (uncapped : s.params.pollCap = none) :
    ∃ latch tr, s.run (n + 7) = .next (s.atGates (n + 1) latch tr) := by
  obtain ⟨latch, tr, ran⟩ := h
  have cr : s.params.layout.mulLock.set (crWord s.params) 1#32 = crLocked s.params := set_mulLock_crWord hi.wf
  have lock : s.run (n + 4) = .next (s.atPoll n latch tr).envLock.tick :=
    hi.run_succ ht ran fun hi' ht' => step_env (paramsRefusal_none hi'.wf) (hi'.stopped_eq_none ht')
      ((hi'.envActs_at_poll rfl (crWord_unlocked hi'.wf) oracle uncapped).mpr rfl)
  have poll := hi.run_succ ht lock fun hi' ht' => hi'.step_pollLocked ht' rfl uncapped
    (Slot.get_set_self (mulLock_slot hi.wf).1 _ Slot.holds_one)
  have timed := hi.run_succ ht poll fun hi' ht' => hi'.step_mtSet ht' rfl
  have switched := hi.run_succ ht timed fun hi' ht' => hi'.step_cfgSwitch ht' rfl
  refine ⟨crLocked s.params, tr ++ [Event.lock, Event.rd .cr (crLocked s.params),
    Event.wr .mtcr (mtWord s.params), Event.wr .cfgr (cfgSwitchWord s.params)],
    switched.trans (congrArg _ ?_)⟩
  simp +arith [State.atGates, State.atPoll, State.goto, State.enter, State.busWrite32, State.setReg,
    State.stored, State.record, State.tick, State.envLock, cr]

/-! ### To the end -/

/-- Settles O52: to the poll, `n` polls, to the gates, and the five gates. -/
theorem initBringsTheClocksUp : Obligations.InitBringsTheClocksUp := by
  unfold Obligations.InitBringsTheClocksUp
  intro s n rest hi ht hb hp hport oracle uncapped
  have polled := hi.runsToPoll_of_oracle ht hb hp hport oracle uncapped n (Nat.le_refl n)
  obtain ⟨latch, tr, ran⟩ := polled.gates hi ht oracle uncapped
  obtain ⟨hi', ht'⟩ := hi.run ht ran
  obtain ⟨latch', tr', gated⟩ := hi'.run_gates ht' rfl
  have tail : s.port.tail = rest := by rw [hport]; rfl
  have penr : ∀ g : Fin 3, (s.atGates (n + 1) latch tr).reg (penr g) = s.reg (penr g) := fun g => by
    match g with
    | 0 | 1 | 2 => rfl
  refine ⟨_, (State.run_add (b := 5) ran).trans gated, rfl, rfl, rfl, fun g => ?_, rfl, rfl, rfl, rfl, rfl,
    rfl, rfl, rfl, tail⟩
  rw [State.complete_reg, State.gated_penr, penr]
  rfl

end Sys2Proof.Machine
end

section
/-! PROOFS. Lock failure is a hang (60_exceptions.md R232): as long as ENV has no turn, INIT stays at the
poll. -/

namespace Sys2Proof.Machine

/-- Where nothing else stops the machine or turns it away, ENV acts whenever it could. -/
theorem State.Inv.envActs_iff_turn {s : State} (hi : s.Inv) (ht : s.TraceInv) :
    s.envActs = true ↔ s.turn = .env := by
  refine ⟨fun acts => ?_, State.envActs_of_turn⟩
  simp [State.turn, paramsRefusal_none hi.wf, hi.stopped_eq_none ht, acts]

/-- As long as ENV has no turn, every poll reads the lock as 0. -/
theorem State.Inv.runsToPoll_of_no_env {s : State} (hi : s.Inv) (ht : s.TraceInv) (hb : s.busy = false)
    (hp : s.phase = phReset) {rest : List (BitVec 2)} (hport : s.port = 0b00#2 :: rest)
    (uncapped : s.params.pollCap = none) (k : Nat)
    (noEnv : ∀ (j : Nat) (u : State), j < k + 3 → s.run j = .next u → u.turn ≠ .env) :
    s.RunsToPoll k := by
  induction k with
  | zero => exact hi.runsToPoll ht hb hp hport
  | succ k ih =>
    have polled := ih fun j u hj => noEnv j u (Nat.lt_succ_of_lt hj)
    refine polled.next hi ht uncapped fun u ran => ?_
    obtain ⟨hi', ht'⟩ := hi.run ht ran
    have notEnv : u.turn ≠ .env := noEnv (k + 3) u (Nat.lt_succ_self _) ran
    exact Bool.eq_false_iff.mpr ((hi'.envActs_iff_turn ht').not.mpr notEnv)

/-- INIT writes CR and CFGR only, as far as to the poll. -/
theorem State.atPoll_reg_ne (s : State) (j : Nat) (latch : Word) (tr : List Event) {x : Reg}
    (hcr : x ≠ .cr) (hcfgr : x ≠ .cfgr) : (s.atPoll j latch tr).reg x = s.reg x := by
  cases x with
  | cr => exact absurd rfl hcr
  | cfgr => exact absurd rfl hcfgr
  | penr0 | penr1 | penr2 | prstr0 | prstr1 | mtcr => rfl

/-- Settles O54: INIT leads to the poll, and every further step is a poll that stays there. -/
theorem lockFailureIsAnEndlessPoll : Obligations.LockFailureIsAnEndlessPoll := by
  unfold Obligations.LockFailureIsAnEndlessPoll
  intro s k rest hi ht hb hp hport uncapped noEnv
  obtain ⟨latch, tr, ran⟩ := hi.runsToPoll_of_no_env ht hb hp hport uncapped k noEnv
  exact ⟨s.atPoll k latch tr, ran, rfl, rfl, rfl, rfl, rfl, (crWord_fields hi.wf).2.2.2,
    fun _ => s.atPoll_reg_ne k latch tr, rfl⟩

end Sys2Proof.Machine
end

section
/-! PROOFS. Power-on reset (70_reset_and_hazards.md R260 to R263): the four forced fields, the idle sequencer,
and that both invariants hold there (R284). -/

namespace Sys2Proof.Machine

/-! ### The reset words -/

/-- The fields of CR that reset forces lie inside the word. -/
theorem forcedCr_inWord {p : Params} (wf : p.wellFormed = true) :
    p.layout.ioscEn.inWord = true ∧ p.layout.mulEn.inWord = true ∧ p.layout.mulLock.inWord = true := by
  have slots := (p.cr_slots wf).1
  simp only [slotsApart_cons] at slots
  simp only [slots, and_self]

/-- Outside the three forced bits CR holds its parameter (70_reset_and_hazards.md R261). -/
theorem resetCr_getLsbD_outside {p : Params} (wf : p.wellFormed = true) {i : Nat} (hi : i < 32)
    (ioscEn : p.layout.ioscEn.covers i = false) (mulEn : p.layout.mulEn.covers i = false)
    (mulLock : p.layout.mulLock.covers i = false) :
    (resetCr p).getLsbD i = p.resetWords.crRest.getLsbD i := by
  obtain ⟨iosc, en, lock⟩ := forcedCr_inWord wf
  rw [resetCr, Slot.set_getLsbD_of_not_covers lock _ _ hi mulLock,
    Slot.set_getLsbD_of_not_covers en _ _ hi mulEn, Slot.set_getLsbD_of_not_covers iosc _ _ hi ioscEn]

/-- Outside the clock source CFGR holds its parameter (R261). -/
theorem resetCfgr_getLsbD_outside {p : Params} (wf : p.wellFormed = true) {i : Nat} (hi : i < 32)
    (sysSrc : p.layout.sysSrc.covers i = false) :
    (resetCfgr p).getLsbD i = p.resetWords.cfgrRest.getLsbD i :=
  Slot.set_getLsbD_of_not_covers (sysSrc_inWord wf) _ _ hi sysSrc

/-- Settles O39: reset sets the forced fields, and a bit outside them is the parameter's. -/
theorem powerOnForcesTheFourFields : Obligations.PowerOnForcesTheFourFields := by
  unfold Obligations.PowerOnForcesTheFourFields
  intro p t r wf
  obtain ⟨ioscEn, mulEn, mulLock⟩ := resetCr_fields wf
  exact ⟨ioscEn, mulEn, mulLock, resetCfgr_sysSrc wf, fun _ => resetCr_getLsbD_outside wf,
    fun _ => resetCfgr_getLsbD_outside wf, rfl, rfl, rfl, rfl, rfl, rfl⟩

/-! ### The sequencer and the invariants -/

/-- Settles O40: each is a field of the power-on state. -/
theorem powerOnIsIdle : Obligations.PowerOnIsIdle := by
  unfold Obligations.PowerOnIsIdle
  intro p t r
  exact ⟨rfl, rfl, rfl, rfl, rfl, rfl, rfl, rfl, rfl⟩

theorem State.Inv.powerOn {p : Params} (wf : p.wellFormed = true) (t r : Word) :
    (State.powerOn p t r).Inv := by
  obtain ⟨-, mulEn, mulLock⟩ := resetCr_fields wf
  exact {
    wf := wf
    idle := by simp [State.powerOn]
    done := by simp [State.powerOn]
    lockOff := fun _ => mulLock
    place := rfl
    fresh := fun _ => ⟨mulEn, resetCfgr_sysSrc wf, rfl⟩
    configured := fun h => by simp [State.powerOn] at h
    started := fun h => by simp [State.powerOn] at h
    locked := fun h => by simp [State.powerOn] at h
    timed := fun h => by simp [State.powerOn] at h
    switched := fun h => by simp [State.powerOn] at h }

/-- The empty trace has no event to offend, and no bring-up has begun. -/
theorem State.TraceInv.powerOn (p : Params) (t r : Word) : (State.powerOn p t r).TraceInv where
  noEarlyGate := rfl
  noCrRmw := rfl
  begun h := by simp [State.powerOn] at h
  mark h := by simp [State.powerOn] at h
  beforeCr h := by simp [State.powerOn] at h
  crFull _ h := by simp [State.powerOn] at h
  order := rfl
  polls := rfl

/-- Settles O41: the invariants hold at power-on, and neither looks at the port or the draw counter. -/
theorem invariantsHoldAtReset : Obligations.InvariantsHoldAtReset := by
  unfold Obligations.InvariantsHoldAtReset
  intro p t r prog d wf
  exact ⟨(State.Inv.powerOn wf t r).stay rfl rfl rfl rfl,
    (State.TraceInv.powerOn p t r).quiet rfl rfl rfl (.inl rfl) (.inl rfl)⟩

end Sys2Proof.Machine
end

section
/-! PROOFS. The hazards (70_reset_and_hazards.md R270 to R275): a state that shows one has no step, and no run
from reset reaches one (R274). -/

namespace Sys2Proof.Machine

/-! ### Hazard states -/

theorem State.onMultiplier_iff {s : State} :
    s.onMultiplier = true ↔ s.params.layout.sysSrc.get s.cfgr = s.params.enc.sysSrcMul :=
  beq_iff_eq

theorem State.hzFetch_iff {s : State} : s.hzFetch = true ↔ s.onMultiplier = true ∧
    (s.params.layout.ws.get s.mtcr).toNat < s.params.wsTarget.val := by
  simp [State.hzFetch]

theorem State.hzUnlocked_iff {s : State} : s.hzUnlocked = true ↔ s.onMultiplier = true ∧
    ¬(s.params.layout.mulEn.get s.cr = 1 ∧ s.params.layout.mulLock.get s.cr = 1) := by
  simp [State.hzUnlocked, imp_iff_not_or]

/-- Under well-formed parameters a hazard stops the machine and names the fault. -/
theorem step_hazard {s : State} (wf : s.params.wellFormed = true) {f : Fault} (h : s.hazard = some f) :
    step s = .fault f := by
  simp [step, State.turn, paramsRefusal_none wf, State.stopped, h]

/-- Settles O34: `HZ_FETCH` is the first hazard looked for, `HZ_UNLOCKED` the second. -/
theorem hazardStatesHaveNoStep : Obligations.HazardStatesHaveNoStep := by
  unfold Obligations.HazardStatesHaveNoStep
  intro s wf source
  have on := State.onMultiplier_iff.mpr source
  refine ⟨fun slow => ?_, fun fast unlocked => ?_⟩
  · have fetch : s.hzFetch = true := State.hzFetch_iff.mpr ⟨on, slow⟩
    exact step_hazard wf (if_pos fetch)
  · have noFetch : ¬s.hzFetch = true := fun fetch => Nat.not_lt.mpr fast (State.hzFetch_iff.mp fetch).2
    have lock : s.hzUnlocked = true := State.hzUnlocked_iff.mpr ⟨on, unlocked⟩
    exact step_hazard wf ((if_neg noFetch).trans (if_pos lock))

/-! ### No run from reset comes to one -/

/-- Settles O44: the state invariant excludes the hazards of the state, the trace invariant those of the
trace. -/
theorem invariantsExcludeTheHazards : Obligations.InvariantsExcludeTheHazards := by
  unfold Obligations.InvariantsExcludeTheHazards
  intro s hi ht
  exact ⟨hi.hzFetch_eq_false, hi.hzUnlocked_eq_false, ht.noEarlyGate, ht.noCrRmw⟩

/-- No run changes a parameter (10_state.md R49). -/
theorem State.run_params {s t : State} {n : Nat} (h : s.run n = .next t) : t.params = s.params := by
  induction n generalizing s with
  | zero => cases h; rfl
  | succ n ih =>
    unfold State.run at h
    split at h
    next r hr => exact (ih h).trans (step_keepsRecords hr).params
    · cases h
    · cases h

/-- Settles O45: both invariants hold at reset, every run keeps them, and they exclude the hazards and any
write of CR but that of the constant. -/
theorem noRunReachesAHazard : Obligations.NoRunReachesAHazard := by
  unfold Obligations.NoRunReachesAHazard
  intro p t r prog d k s wf ran
  obtain ⟨hi₀, ht₀⟩ := invariantsHoldAtReset p t r prog d wf
  obtain ⟨hi, ht⟩ := hi₀.run ht₀ ran
  obtain ⟨fetch, unlocked, early, rmw⟩ := invariantsExcludeTheHazards s hi ht
  have params : s.params = p := State.run_params ran
  exact ⟨fetch, unlocked, early, rmw, params, params ▸ ht.crFull⟩

end Sys2Proof.Machine
end

section
/-! PROOFS. Outside a bring-up, before it (70_reset_and_hazards.md R283) and after it (R285): the block is idle
or releases the USB reset, and that bit is all a step can change in the registers. -/

namespace Sys2Proof.Machine

/-! ### A step outside a bring-up -/

/-- A step in which the block takes the first command off its port, before it carries the command out. -/
def State.issue (s : State) (rest : List (BitVec 2)) : State := { s.tick with port := rest }

@[simp] theorem State.issue_reg (s : State) (rest : List (BitVec 2)) (x : Reg) :
    (s.issue rest).reg x = s.reg x := by
  cases x <;> rfl

@[simp] theorem State.issue_phase (s : State) (rest : List (BitVec 2)) :
    (s.issue rest).phase = s.phase := rfl
@[simp] theorem State.issue_upc (s : State) (rest : List (BitVec 2)) : (s.issue rest).upc = s.upc := rfl
@[simp] theorem State.issue_initDone (s : State) (rest : List (BitVec 2)) :
    (s.issue rest).initDone = s.initDone := rfl
@[simp] theorem State.issue_port (s : State) (rest : List (BitVec 2)) : (s.issue rest).port = rest := rfl

/-- What a step does while no INIT is under way, by what the block finds: nothing to do, one of the four
commands at the port, or the USB reset to release. -/
inductive State.QuietStep (s : State) : State → Prop where
  | wait (idle : s.busy = false) (empty : s.port = []) : s.QuietStep s.tick
  | init {rest : List (BitVec 2)} {t : State} (idle : s.busy = false) (asked : s.port = 0b00#2 :: rest)
      (ran : execInit (s.issue rest) = .next t) : s.QuietStep t
  | getBus1 {rest : List (BitVec 2)} (idle : s.busy = false) (asked : s.port = 0b01#2 :: rest) :
      s.QuietStep ((s.issue rest).respond .getBus1 (freqWord (bus1Freq s.params)))
  | getBus2 {rest : List (BitVec 2)} (idle : s.busy = false) (asked : s.port = 0b10#2 :: rest) :
      s.QuietStep ((s.issue rest).respond .getBus2 (freqWord (bus2Freq s.params)))
  | relUsb {rest : List (BitVec 2)} (idle : s.busy = false) (asked : s.port = 0b11#2 :: rest) :
      s.QuietStep (((s.issue rest).record (.cmd .relUsb true)).start 10)
  | release {t : State} (busy : s.busy = true) (upc : s.upc = 10)
      (ran : exec .usbRstRel s.tick = .next t) : s.QuietStep t

/-- The four codes of the command port (30_encoding.md R110). -/
theorem commandCode_cases : ∀ c : BitVec 2, c = 0b00#2 ∨ c = 0b01#2 ∨ c = 0b10#2 ∨ c = 0b11#2 := by decide

theorem State.QuietStep.of_command {s t : State} {c : BitVec 2} {rest : List (BitVec 2)}
    (idle : s.busy = false) (asked : s.port = c :: rest)
    (ran : exec (decodeCmd c).instr (s.issue rest) = .next t) : s.QuietStep t := by
  rcases commandCode_cases c with rfl | rfl | rfl | rfl
  · exact .init idle asked ran
  · obtain ⟨-, rfl⟩ := execGetBus1_next.mp ran
    exact .getBus1 idle asked
  · obtain ⟨-, rfl⟩ := execGetBus2_next.mp ran
    exact .getBus2 idle asked
  · obtain ⟨-, rfl⟩ := execRelUsb_next.mp ran
    exact .relUsb idle asked

/-- ENV does not act outside a bring-up, so the step is that of HOST or of SEQ. -/
theorem State.Inv.quietStep {s t : State} (h : s.Inv) (hu : s.upc = upcIdle ∨ s.upc = 10)
    (hstep : step s = .next t) : s.QuietStep t := by
  have notPoll : s.upc ≠ 2 := by rcases hu with hu | hu <;> rw [hu] <;> decide
  obtain ⟨-, ⟨acts, -⟩ | ⟨-, he⟩⟩ := step_next_of_wellFormed h.wf hstep
  · rw [h.envActs_eq_false notPoll] at acts
    cases acts
  · cases hb : s.busy with
    | true =>
      have release : s.upc = 10 := hu.resolve_left (h.idle.not.mp (by simp [hb]))
      rw [State.fetch_busy hb, State.advance_busy hb, release] at he
      exact .release hb release he
    | false =>
      rw [State.advance_idle hb] at he
      cases hport : s.port with
      | nil =>
        have untaken : s.port.tail = s.tick.port := by rw [hport]; exact hport.symm
        rw [State.fetch_waiting hb hport, untaken] at he
        obtain rfl : t = s.tick := next_eq_iff.mp he
        exact .wait hb hport
      | cons c rest =>
        rw [State.fetch_command hb hport, hport] at he
        exact .of_command hb hport he

/-! ### After the bring-up -/

/-- In the phase `PeripheralsEnabled` the block is idle or releases the USB reset. -/
theorem State.Inv.upc_of_enabled {s : State} (h : s.Inv) (hp : s.phase = phPeripheralsEnabled) :
    s.upc = upcIdle ∨ s.upc = 10 := by
  have place : ∀ u, placeOk u phPeripheralsEnabled = true → u = upcIdle ∨ u = 10 := by decide
  exact place _ (hp ▸ h.place)

/-- Everything a step does that releases the USB reset (43_peripheral_gate.md R190, R191). -/
theorem execUsbRstRel_tick {s t : State} (ran : exec .usbRstRel s.tick = .next t) :
    t = { s.setReg (usbRstTarget s.params) s.usbReleased with
      t := s.reg (usbRstTarget s.params), upc := upcIdle, busy := false,
      trace := s.trace ++ [.rd (usbRstTarget s.params) (s.reg (usbRstTarget s.params)),
        .wr (usbRstTarget s.params) s.usbReleased], draws := s.draws + 1 } := by
  obtain ⟨-, rfl⟩ := execUsbRstRel_next.mp ran
  rw [s.tick.readModifyWrite_eq _ (usbRstTarget_ne_cr _), s.tick_reg, s.tick_params, State.usbReleased]
  cases usbRstTarget s.params <;> rfl

theorem execUsbRstRel_tick_reg {s t : State} (ran : exec .usbRstRel s.tick = .next t) :
    t.reg (usbRstTarget s.params) = s.usbReleased := by
  rw [← s.tick_params, execUsbRstRel_released ran, State.usbReleased, s.tick_reg]
  rfl

/-- The release moves the sequencer to idle, and leaves the bring-up and the port alone. -/
theorem execUsbRstRel_place {s t : State} (ran : exec .usbRstRel s = .next t) :
    t.phase = s.phase ∧ t.initDone = s.initDone ∧ t.upc = upcIdle ∧ t.port = s.port := by
  obtain ⟨-, rfl⟩ := execUsbRstRel_next.mp ran
  simp

/-- Everything the answer of a frequency command does in the step that issues it. -/
theorem State.issue_respond_eq (s : State) (rest : List (BitVec 2)) (c : Command) (v : Word) :
    (s.issue rest).respond c v = { s with
      resp := v, trace := s.trace ++ [.cmd c true, .resp v], port := rest, draws := s.draws + 1 } :=
  State.respond_eq ..

/-- Past the phase `Reset` INIT is refused, so the bring-up stays where it is. -/
theorem State.QuietStep.bringUp_stays {s t : State} (q : s.QuietStep t) (late : s.phase ≠ phReset) :
    t.phase = s.phase ∧ t.initDone = s.initDone := by
  cases q with
  | wait | getBus1 | getBus2 | relUsb => simp
  | init _ _ ran =>
    obtain ⟨-, rfl⟩ := execInit_next.mp ran
    rw [State.issue_phase, if_neg late]
    simp
  | release _ _ ran =>
    obtain ⟨phase, done, -⟩ := execUsbRstRel_place ran
    exact ⟨phase, done⟩

/-- Settles O56, by what the block finds; INIT is refused in this phase. -/
theorem onlyTheUsbResetBitChangesAfterBringUp : Obligations.OnlyTheUsbResetBitChangesAfterBringUp := by
  unfold Obligations.OnlyTheUsbResetBitChangesAfterBringUp
  intro s t h hp hstep
  have late : s.phase ≠ phReset := by rw [hp]; decide
  have quiet := h.quietStep (h.upc_of_enabled hp) hstep
  obtain ⟨phase, done⟩ := quiet.bringUp_stays late
  refine ⟨phase.trans hp, done.trans (h.done.mpr hp), ?_⟩
  cases quiet with
  | wait idle empty => exact .inl ⟨idle, empty, rfl⟩
  | init idle asked ran =>
    obtain ⟨-, rfl⟩ := execInit_next.mp ran
    rw [State.issue_phase, if_neg late]
    refine .inr (.inl ⟨idle, _, asked, ?_⟩)
    simp [State.issue, State.tick, State.record, State.markRefused]
  | getBus1 idle asked => exact .inr (.inr (.inl ⟨idle, _, asked, s.issue_respond_eq ..⟩))
  | getBus2 idle asked => exact .inr (.inr (.inr (.inl ⟨idle, _, asked, s.issue_respond_eq ..⟩)))
  | relUsb idle asked =>
    refine .inr (.inr (.inr (.inr (.inl ⟨idle, _, asked, ?_⟩))))
    simp [State.issue, State.tick, State.record, State.start]
  | release busy upc ran =>
    refine .inr (.inr (.inr (.inr (.inr ⟨busy, upc, ?_⟩))))
    simp only [execUsbRstRel_tick_reg ran]
    exact ⟨execUsbRstRel_tick ran, s.usbReleased_getLsbD⟩

/-! ### Before the bring-up -/

/-- Settles O57, by what the block finds; INIT is not at the port. -/
theorem withoutInitNothingButTheUsbResetBitChanges :
    Obligations.WithoutInitNothingButTheUsbResetBitChanges := by
  unfold Obligations.WithoutInitNothingButTheUsbResetBitChanges
  intro s t h hp hu noInit hstep
  have later : ∀ {c rest}, s.port = c :: rest → 0b00#2 ∉ rest := fun asked again =>
    noInit (asked ▸ List.mem_cons_of_mem _ again)
  cases h.quietStep hu hstep with
  | wait => exact ⟨hp, hu, noInit, by simp⟩
  | init idle asked => exact absurd (asked ▸ List.mem_cons_self) noInit
  | getBus1 idle asked => simpa [hp, later asked] using hu
  | getBus2 idle asked => simpa [hp, later asked] using hu
  | relUsb idle asked => simp [hp, later asked]
  | release busy upc ran =>
    obtain ⟨phase, -, ended, port⟩ := execUsbRstRel_place ran
    refine ⟨phase.trans hp, .inl ended, port ▸ noInit, fun x hx => ?_, fun i hi => ?_⟩
    · have other : writtenReg s.tick.params .usbRstRel ≠ some x := fun e => hx (Option.some.inj e).symm
      rw [exec_reg_ne ran other, s.tick_reg]
    · rw [execUsbRstRel_tick_reg ran, s.usbReleased_getLsbD, if_neg hi]

end Sys2Proof.Machine
end

section
/-! PROOFS. The bytes of a register on the bus (20_memory.md R75): where the byte at `ADDR(X) + k` lies,
and what it holds. -/

namespace Sys2Proof.Machine

/-- `ADDR(X) + k` lies in the word at `ADDR(X)`, at offset `k`: with `ADDR(X)` a multiple of 4 the sum
does not pass the end of the address space (20_memory.md R73). -/
theorem regAddr_add_toNat {p : Params} (wf : p.wellFormed = true) (x : Reg) {k : Nat} (hk : k < 4) :
    (regAddr p.addr x + BitVec.ofNat 32 k).toNat = (regAddr p.addr x).toNat + k := by
  have aligned := regAddr_aligned wf x
  have bound := (regAddr p.addr x).isLt
  rw [BitVec.toNat_add, BitVec.toNat_ofNat]
  omega

/-- The word that `ADDR(X) + k` lies in is the register's own. -/
theorem wordAddr_regAddr_add {p : Params} (wf : p.wellFormed = true) (x : Reg) {k : Nat} (hk : k < 4) :
    wordAddr (regAddr p.addr x + BitVec.ofNat 32 k) = regAddr p.addr x := by
  have aligned := regAddr_aligned wf x
  have start : ((regAddr p.addr x).toNat + k) / 4 * 4 = (regAddr p.addr x).toNat := by omega
  rw [wordAddr, regAddr_add_toNat wf x hk, start, BitVec.ofNat_toNat, BitVec.setWidth_eq]

/-- The byte at `ADDR(X) + k` is the register shifted down by `k` bytes (20_memory.md R75). -/
theorem State.busByte_regAddr_add {s : State} (wf : s.params.wellFormed = true) (x : Reg) {k : Nat}
    (hk : k < 4) : s.busByte (regAddr s.params.addr x + BitVec.ofNat 32 k) =
      some ((s.reg x >>> (8 * k)).setWidth 8) := by
  have aligned := regAddr_aligned wf x
  have offset : ((regAddr s.params.addr x).toNat + k) % 4 = k := by omega
  simp only [State.busByte, wordAddr_regAddr_add wf x hk, regAt_regAddr wf x, regAddr_add_toNat wf x hk,
    offset]

/-- Settles O27: bit `j` of the register shifted down by `k` bytes is its bit `8k + j`. -/
theorem bytesAreLittleEndian : Obligations.BytesAreLittleEndian := by
  unfold Obligations.BytesAreLittleEndian
  intro s x k wf hk
  refine ⟨_, State.busByte_regAddr_add wf x hk, fun j hj => ?_⟩
  rw [BitVec.getLsbD_setWidth, BitVec.getLsbD_ushiftRight, decide_eq_true hj, Bool.true_and]

end Sys2Proof.Machine
end
